-- ==== Sys2Proof/Word.lean ====
section
/-! DEFINITION. The words of the engine: unsigned bit vectors of the widths of R8 and R9, bit 0 the
least significant bit (R11). There are no signed values. -/

namespace Sys2Proof

/-- A command word: CMD_W = 16 bits (R9, R60). -/
abbrev CmdWord := BitVec 16

/-- The operand field DATA of a command word, and the data of a response: 10 bits (R61, RSP_DATA_W of R9). -/
abbrev Data := BitVec 10

/-- A block: BLOCK_W = 8 bits (R8). -/
abbrev Block := BitVec 8

/-- A half block: HALF_W = 4 bits (R8). -/
abbrev Half := BitVec 4

/-- A subkey: SUBKEY_W = 8 bits (R8). -/
abbrev Subkey := BitVec 8

/-- A master key: KEY_W = 10 bits (R8). -/
abbrev MasterKey := BitVec 10

/-- The selector of one of the N_SUBKEYS = 2 subkey registers (R8, R12): `k1` is `K[0]`, `k2` is `K[1]`. -/
inductive SubkeySel where
  | k1
  | k2
deriving DecidableEq, Repr

end Sys2Proof
end

