-- ==== Sys2Proof/Syntax.lean ====
section
/-! DEFINITION. The 17 commands of the opcode map (R65), one constructor per row of spec/opcode_table.json, with
exactly the operand bits the command uses (R62, R64); and the assembler's line (R73). -/

namespace Sys2Proof

/-- A decoded command. The operand of each is the low slice of DATA its format names (R64), so bits the command
ignores are not part of it; `sel` is the register that KS names (R63). -/
inductive Instr where
  /-- KEYLD data10 (R153). -/
  | keyld (key : MasterKey)
  /-- SKLD ksel, data8 (R155). -/
  | skld (sel : SubkeySel) (value : Subkey)
  /-- KEYCLR (R159). -/
  | keyclr
  /-- SKRD ksel (R157). -/
  | skrd (sel : SubkeySel)
  /-- ENC data8 (R173). -/
  | enc (block : Block)
  /-- DEC data8 (R175). -/
  | dec (block : Block)
  /-- PIP data8 (R112). -/
  | pip (block : Block)
  /-- PIPI data8 (R113). -/
  | pipi (block : Block)
  /-- PP10 data10 (R114). -/
  | pp10 (value : BitVec 10)
  /-- PLS data10 (R115). -/
  | pls (value : BitVec 10)
  /-- PP8 data10 (R116). -/
  | pp8 (value : BitVec 10)
  /-- PEP data4 (R117). -/
  | pep (half : Half)
  /-- PP4 data4 (R118). -/
  | pp4 (half : Half)
  /-- PSW data8 (R119). -/
  | psw (block : Block)
  /-- SBOX data8 (R134). -/
  | sbox (value : BitVec 8)
  /-- FRND ksel, data4 (R142). -/
  | frnd (sel : SubkeySel) (half : Half)
  /-- FSTEP ksel, data8 (R145). -/
  | fstep (sel : SubkeySel) (block : Block)
deriving DecidableEq, Repr

/-- The names of the 17 commands (R65). -/
inductive Mnemonic where
  | keyld | skld | keyclr | skrd | enc | dec | pip | pipi | pp10 | pls | pp8 | pep | pp4 | psw | sbox | frnd | fstep
deriving DecidableEq, Repr

/-- The command an instruction is an instance of. -/
def Instr.mnemonic : Instr → Mnemonic
  | .keyld _ => .keyld
  | .skld _ _ => .skld
  | .keyclr => .keyclr
  | .skrd _ => .skrd
  | .enc _ => .enc
  | .dec _ => .dec
  | .pip _ => .pip
  | .pipi _ => .pipi
  | .pp10 _ => .pp10
  | .pls _ => .pls
  | .pp8 _ => .pp8
  | .pep _ => .pep
  | .pp4 _ => .pp4
  | .psw _ => .psw
  | .sbox _ => .sbox
  | .frnd _ _ => .frnd
  | .fstep _ _ => .fstep

/-- The seven formats of R64: whether KS selects a register (S) or is reserved (D), and the operand's width. -/
inductive Format where
  | d0 | d4 | d8 | d10 | s0 | s4 | s8
deriving DecidableEq, Repr

/-- A line of assembly after its text has been read (R73): a mnemonic, at most one register name and at most one
number. It need not be well formed (WellFormed.lean). -/
structure AsmLine where
  mnemonic : Mnemonic
  ksel : Option SubkeySel
  data : Option Nat
deriving DecidableEq, Repr

end Sys2Proof
end

