-- ==== Sys2Proof/Machine/Operands.lean ====
section
/-! DEFINITION. Operand forms: the fields of a command word (R61), the formats (R64), the operand slices (R62),
the register select (R63) and the assembly of a result into response data (R71). -/

namespace Sys2Proof.Machine

/-- OP = w[15:11] (R61). -/
def opField (w : CmdWord) : BitVec 5 := w.extractLsb' 11 5

/-- KS = bit 10 of the word (R61). -/
def ksField (w : CmdWord) : Bool := w.getLsbD 10

/-- DATA = w[9:0] (R61). -/
def dataField (w : CmdWord) : Data := w.extractLsb' 0 10

/-- The word with the given fields: `OP ++ KS ++ DATA` (R61). -/
def wordOf (op : BitVec 5) (ks : Bool) (data : Data) : CmdWord := op ++ BitVec.ofBool ks ++ data

/-- The 4-bit operand DATA[3:0] of formats D4 and S4 (R64). -/
def operand4 (d : Data) : BitVec 4 := d.extractLsb' 0 4

/-- The 8-bit operand DATA[7:0] of formats D8 and S8 (R64). -/
def operand8 (d : Data) : BitVec 8 := d.extractLsb' 0 8

/-- The register KS names: 0 is K1, 1 is K2 (R61, R63). -/
def selOfKs : Bool → SubkeySel
  | false => .k1
  | true => .k2

/-- The KS bit that names a register (R63, R73). -/
def ksOfSel : SubkeySel → Bool
  | .k1 => false
  | .k2 => true

/-- `zext_10`: an operand or a result of any width up to 10, widened with zeros (R71, R73). -/
def zext10 {n : Nat} (v : BitVec n) : Data := v.setWidth 10

/-- The format of each command (R64, R65). -/
def formatOf : Mnemonic → Format
  | .keyclr => .d0
  | .pep | .pp4 => .d4
  | .enc | .dec | .pip | .pipi | .psw | .sbox => .d8
  | .keyld | .pp10 | .pls | .pp8 => .d10
  | .skrd => .s0
  | .frnd => .s4
  | .skld | .fstep => .s8

/-- Whether the format uses KS; in the others KS must be 0 (R63, R64). -/
def usesKs : Format → Bool
  | .d0 | .d4 | .d8 | .d10 => false
  | .s0 | .s4 | .s8 => true

/-- The operand's width in bits (R64). -/
def operandWidth : Format → Nat
  | .d0 | .s0 => 0
  | .d4 | .s4 => 4
  | .d8 | .s8 => 8
  | .d10 => 10

/-- The line of assembly an instruction prints as: the operand from the used low bits only (R73). -/
def lineOf : Instr → AsmLine
  | .keyld v => ⟨.keyld, none, some v.toNat⟩
  | .skld sel v => ⟨.skld, some sel, some v.toNat⟩
  | .keyclr => ⟨.keyclr, none, none⟩
  | .skrd sel => ⟨.skrd, some sel, none⟩
  | .enc v => ⟨.enc, none, some v.toNat⟩
  | .dec v => ⟨.dec, none, some v.toNat⟩
  | .pip v => ⟨.pip, none, some v.toNat⟩
  | .pipi v => ⟨.pipi, none, some v.toNat⟩
  | .pp10 v => ⟨.pp10, none, some v.toNat⟩
  | .pls v => ⟨.pls, none, some v.toNat⟩
  | .pp8 v => ⟨.pp8, none, some v.toNat⟩
  | .pep v => ⟨.pep, none, some v.toNat⟩
  | .pp4 v => ⟨.pp4, none, some v.toNat⟩
  | .psw v => ⟨.psw, none, some v.toNat⟩
  | .sbox v => ⟨.sbox, none, some v.toNat⟩
  | .frnd sel v => ⟨.frnd, some sel, some v.toNat⟩
  | .fstep sel v => ⟨.fstep, some sel, some v.toNat⟩

end Sys2Proof.Machine
end

