-- ==== Sys2Proof/WellFormed.lean ====
section
/-! DEFINITION. Well-formedness (R73): a line of assembly has the operands its command's format takes (R64), and its
number fits the operand's width. An `Instr` carries operands of exactly the widths of its format, so every `Instr` is
well formed (log entry 14); ill-formed terms are lines. -/

namespace Sys2Proof

/-- A register name stands in a line exactly when the command's format uses KS (R73). -/
def AsmLine.kselFits (l : AsmLine) : Bool :=
  l.ksel.isSome == Machine.usesKs (Machine.formatOf l.mnemonic)

/-- A number stands in a line exactly when the format has an operand (R73). -/
def AsmLine.dataStands (l : AsmLine) : Bool :=
  l.data.isSome == (Machine.operandWidth (Machine.formatOf l.mnemonic) != 0)

/-- The number, where one stands, fits the command's operand width (R73). -/
def AsmLine.dataFits (l : AsmLine) : Bool :=
  match l.data with
  | none => true
  | some d => decide (d < 2 ^ Machine.operandWidth (Machine.formatOf l.mnemonic))

/-- A line the assembler accepts (R73). -/
def AsmLine.wellFormed (l : AsmLine) : Bool := l.kselFits && l.dataStands && l.dataFits

/-- An instruction is well formed when the line it prints as is (R73). -/
def Instr.wellFormed (i : Instr) : Bool := (Machine.lineOf i).wellFormed

end Sys2Proof
end

