-- ==== Sys2Proof/Decode.lean ====
section
/-! DEFINITION. Decoding a command word (R60 to R70), total on all 65536 words and rejecting by name, and then the
encoder, written from the same opcode map (R65). -/

namespace Sys2Proof

/-- Why a word is no command (R69). -/
inductive DecodeError where
  /-- OP is one of the 15 reserved values (R66). -/
  | illegalOpcode
  /-- OP is assigned with a D format and KS is 1 (R67). -/
  | reservedField
deriving DecidableEq, Repr

/-- The opcode of each command (R65). -/
def Mnemonic.opcode : Mnemonic → BitVec 5
  | .keyld => 0b00001#5
  | .skld => 0b00010#5
  | .keyclr => 0b00011#5
  | .skrd => 0b00100#5
  | .enc => 0b01000#5
  | .dec => 0b01001#5
  | .pip => 0b10000#5
  | .pipi => 0b10001#5
  | .pp10 => 0b10010#5
  | .pls => 0b10011#5
  | .pp8 => 0b10100#5
  | .pep => 0b10101#5
  | .pp4 => 0b10110#5
  | .psw => 0b10111#5
  | .sbox => 0b11000#5
  | .frnd => 0b11001#5
  | .fstep => 0b11010#5

/-- The 17 rows of the opcode map, in the table's order (R65). -/
def Mnemonic.all : List Mnemonic :=
  [.keyld, .skld, .keyclr, .skrd, .enc, .dec, .pip, .pipi, .pp10, .pls, .pp8, .pep, .pp4, .psw, .sbox, .frnd, .fstep]

/-- The command an opcode selects, none for the 15 reserved values (R65, R66). -/
def Mnemonic.ofOpcode (op : BitVec 5) : Option Mnemonic := Mnemonic.all.find? fun m => m.opcode == op

/-- The instruction of a command from its KS select and its DATA field: the operand is the low slice, the bits above
it are dropped (R62, R64). -/
def Mnemonic.build (m : Mnemonic) (sel : SubkeySel) (d : Data) : Instr :=
  match m with
  | .keyld => .keyld d
  | .skld => .skld sel (Machine.operand8 d)
  | .keyclr => .keyclr
  | .skrd => .skrd sel
  | .enc => .enc (Machine.operand8 d)
  | .dec => .dec (Machine.operand8 d)
  | .pip => .pip (Machine.operand8 d)
  | .pipi => .pipi (Machine.operand8 d)
  | .pp10 => .pp10 d
  | .pls => .pls d
  | .pp8 => .pp8 d
  | .pep => .pep (Machine.operand4 d)
  | .pp4 => .pp4 (Machine.operand4 d)
  | .psw => .psw (Machine.operand8 d)
  | .sbox => .sbox (Machine.operand8 d)
  | .frnd => .frnd sel (Machine.operand4 d)
  | .fstep => .fstep sel (Machine.operand8 d)

/-- Decoding reads nothing but the word and gives exactly one of a command, ILLEGAL_OPCODE or RESERVED_FIELD, the
reserved opcode first (R69, R70). -/
def decode (w : CmdWord) : Except DecodeError Instr :=
  match Mnemonic.ofOpcode (Machine.opField w) with
  | none => .error .illegalOpcode
  | some m =>
    if !Machine.usesKs (Machine.formatOf m) && Machine.ksField w then .error .reservedField
    else .ok (m.build (Machine.selOfKs (Machine.ksField w)) (Machine.dataField w))

/-- The KS bit of an instruction's word: the selected register in the S formats, 0 in the D formats (R63). -/
def Instr.ks : Instr → Bool
  | .skld sel _ | .skrd sel | .frnd sel _ | .fstep sel _ => Machine.ksOfSel sel
  | .keyld _ | .keyclr | .enc _ | .dec _ | .pip _ | .pipi _ | .pp10 _ | .pls _ | .pp8 _ | .pep _ | .pp4 _ | .psw _
  | .sbox _ => false

/-- The DATA field of an instruction's word: the operand in the low bits, 0 in the ignored high bits (R73). -/
def Instr.dataBits : Instr → Data
  | .keyclr | .skrd _ => 0#10
  | .keyld v | .pp10 v | .pls v | .pp8 v => v
  | .skld _ v | .enc v | .dec v | .pip v | .pipi v | .psw v | .sbox v | .fstep _ v => Machine.zext10 v
  | .pep v | .pp4 v | .frnd _ v => Machine.zext10 v

/-- The word of an instruction (R61, R65, R73). -/
def encode (i : Instr) : CmdWord := Machine.wordOf i.mnemonic.opcode i.ks i.dataBits

/-- The command word whose low `nbits` bits are those of `w`, the rest 0, numbered as spec/opcode_table.json numbers
them (a command is one 16-bit word, so bit i of the number is bit i of the word). -/
def tableWord (nbits w : Nat) : CmdWord := BitVec.ofNat 16 (w % 2 ^ nbits)

/-- The instruction the decoder reads from a row's word of spec/opcode_table.json, none where it refuses. -/
def decodeTableWord (nbits w : Nat) : Option Instr :=
  match decode (tableWord nbits w) with
  | .ok i => some i
  | .error _ => none

end Sys2Proof
end

