-- ==== Sys2Proof/Machine/State.lean ====
section
/-! DEFINITION. The state of the engine as plain data: the six registers of R20, and the two lists through which the
host's commands and resets enter and the responses leave (R44, R244; log entries 1 and 2). -/

namespace Sys2Proof.Machine

/-- What the host can do to the engine that changes its state (R244). -/
inductive HostEvent where
  /-- A command word, accepted (R41). -/
  | command (w : CmdWord)
  /-- A clock edge with `rst` high (R230). -/
  | reset
deriving DecidableEq, Repr

/-- A response: the error bit and 10 data bits (R43). -/
structure Response where
  err : Bool
  data : Data
deriving DecidableEq, Repr

/-- Why a step of the model could stop with a fault: never. The three faults of R200 are steps the spec describes
(fault entry, R204), and every state and command word has exactly one step (R69, R70), so nobody raises a stop and
this type has no constructor (log entry 12). -/
inductive Fault where
deriving DecidableEq, Repr

/-- Why the model could refuse a step. -/
inductive Refusal where
  /-- An instruction without a meaning. Raised by nobody: every arm of `exec` calls a meaning. Safe. -/
  | notModelled (mnemonic : String)
deriving DecidableEq, Repr

/-- The engine's state. `k1` to `cause` are the whole architectural state (R20); `pending` and `responses` are the
model's own view of the ports. -/
structure State where
  /-- K1, `K[0]` (R21). -/
  k1 : Subkey
  /-- K2, `K[1]` (R21). -/
  k2 : Subkey
  /-- V1, `V[0]`: K1 has been loaded since the last clear (R23). -/
  v1 : Bool
  /-- V2, `V[1]`: K2 has been loaded since the last clear (R23). -/
  v2 : Bool
  /-- FAULT: set from the first fault until reset (R25). -/
  fault : Bool
  /-- CAUSE: the code of the first fault, 0 when there is none (R25). -/
  cause : BitVec 3
  /-- The model's own: accepted commands and resets the engine has not yet taken, oldest first (R41, R44; log
  entry 1, DESIGN CHOICE, safe). -/
  pending : List HostEvent
  /-- The model's own: the responses emitted so far, oldest first (R42, R245; log entry 2, DESIGN CHOICE, safe). No
  meaning reads it (R30 (c)). -/
  responses : List Response
deriving DecidableEq, Repr

/-- The state right after reset: every register 0 (R32, R230), nothing pending and nothing answered. -/
def State.reset : State :=
  { k1 := 0x00#8, k2 := 0x00#8, v1 := false, v2 := false, fault := false, cause := 0#3, pending := [], responses := [] }

end Sys2Proof.Machine
end

