-- ==== Sys2Proof/Machine/Flags.lean ====
section
/-! DEFINITION. The flags: the valid bits by select (R23), and the status register SR with the `fault` pin as views of
the state (R27, R40). No command writes a flag as a side effect of computing a result (R23). -/

namespace Sys2Proof.Machine

/-- `V[s]` (R12). -/
def State.valid (s : State) : SubkeySel → Bool
  | .k1 => s.v1
  | .k2 => s.v2

/-- Both valid bits are 1, as ENC and DEC need (R201). -/
def State.pairValid (s : State) : Bool := s.v1 && s.v2

/-- `SR = FAULT ++ CAUSE ++ 0b00 ++ V2 ++ V1`, bits 3:2 hardwired 0 (R27). -/
def State.sr (s : State) : BitVec 8 :=
  BitVec.ofBool s.fault ++ s.cause ++ 0b00#2 ++ BitVec.ofBool s.v2 ++ BitVec.ofBool s.v1

/-- The `fault` pin: the FAULT register, a level (R40). -/
def State.faultPin (s : State) : Bool := s.fault

end Sys2Proof.Machine
end

