-- ==== Sys2Proof/Machine/Ops.lean ====
section
/-! DEFINITION. The operations every command is made of: subkey registers by select (R21), responding (R43), fault
entry (R204), the faulted state (R206), and reset as what the host does (R230). -/

namespace Sys2Proof.Machine

/-- `K[s]` (R12, R21). -/
def State.subkey (s : State) : SubkeySel → Subkey
  | .k1 => s.k1
  | .k2 => s.k2

/-- `K[s] <- v; V[s] <- 1`, the other register and its valid bit untouched (R155). -/
def State.loadSubkey (s : State) (sel : SubkeySel) (v : Subkey) : State :=
  match sel with
  | .k1 => { s with k1 := v, v1 := true }
  | .k2 => { s with k2 := v, v2 := true }

/-- Both subkey registers and both valid bits written together (R153, R50). -/
def State.loadPair (s : State) (a b : Subkey) : State := { s with k1 := a, k2 := b, v1 := true, v2 := true }

/-- Both subkey registers and both valid bits cleared together (R159, R204). -/
def State.clearPair (s : State) : State := { s with k1 := 0x00#8, k2 := 0x00#8, v1 := false, v2 := false }

/-- `respond(err, data)`: emit the one response of the current command (R12, R42). -/
def respond (err : Bool) (data : Data) (s : State) : State := { s with responses := s.responses ++ [⟨err, data⟩] }

/-- A command that completes responds `err = 0` and its result (R43 (a), R71). -/
def complete (data : Data) (s : State) : State := respond false data s

/-- The three fault causes (R200). -/
inductive FaultCause where
  | illegalOpcode
  | reservedField
  | subkeyInvalid
deriving DecidableEq, Repr

/-- The code fault entry writes to CAUSE (R200). -/
def FaultCause.code : FaultCause → BitVec 3
  | .illegalOpcode => 1#3
  | .reservedField => 2#3
  | .subkeyInvalid => 3#3

/-- The fault a rejected word raises (R66, R67). -/
def causeOfDecodeError : DecodeError → FaultCause
  | .illegalOpcode => .illegalOpcode
  | .reservedField => .reservedField

/-- Fault entry, the whole effect of the faulting command (R204). -/
def raiseFault (c : FaultCause) (s : State) : State :=
  respond true (zext10 c.code) { s.clearPair with fault := true, cause := c.code }

/-- A command accepted while FAULT is 1: no state change, the recorded cause in the response (R43 (c), R206). -/
def refuseFaulted (s : State) : State := respond true (zext10 s.cause) s

/-- Every command tests FAULT before anything else (R70, R206). -/
def acceptCommand (body : State → State) (s : State) : Host.Outcome State Fault Refusal :=
  .next (if s.fault then refuseFaulted s else body s)

/-- A command that needs the selected subkey: it faults when the valid bit is 0, else it completes with a result
computed from the register (R23, R201). -/
def withSubkey (sel : SubkeySel) (f : Subkey → Data) (s : State) : State :=
  if s.valid sel then complete (f (s.subkey sel)) s else raiseFault .subkeyInvalid s

/-- A command that needs both subkeys: it faults when either valid bit is 0 (R173, R201). -/
def withSubkeyPair (f : Subkey → Subkey → Data) (s : State) : State :=
  if s.pairValid then complete (f s.k1 s.k2) s else raiseFault .subkeyInvalid s

/-- A word that decodes to no command (R66, R67), refused like any other while FAULT is 1 (R206). -/
def rejectWord (e : DecodeError) (s : State) : Host.Outcome State Fault Refusal :=
  acceptCommand (raiseFault (causeOfDecodeError e)) s

/-- Reset of the engine: the six registers take the reset state (R32, R230). It changes neither what the host does
next nor what it has already been answered (log entry 4). -/
def applyReset (s : State) : State :=
  { State.reset with pending := s.pending, responses := s.responses }

/-- The next thing the host does, with the rest still to come; none when the engine is idle (R41, R54). -/
def takeEvent (s : State) : Option (HostEvent × State) :=
  match s.pending with
  | [] => none
  | e :: rest => some (e, { s with pending := rest })

/-- Waiting for a command changes no state (R32, R216; log entry 3). -/
def idle (s : State) : State := s

/-- The host presents a word as the very next command (R41). -/
def presentWord (w : CmdWord) (s : State) : State := { s with pending := .command w :: s.pending }

end Sys2Proof.Machine
end

