-- ==== Sys2Proof/Machine/Permutation.lean ====
section
/-! DEFINITION. The bit permutation unit (spec/40_permutation_unit.md): the primitive, the eight constant tables held
as data (R120), and the eight commands PIP to PSW. -/

namespace Sys2Proof.Machine

/-- A permutation table: element i is the source bit of output bit i (R16, R100). -/
abbrev PermTable (win m : Nat) := Vector (Fin win) m

/-- `permute(v, T)`: output bit i is source bit `T[i]` (R100). -/
def permute {win m : Nat} (v : BitVec win) (t : PermTable win m) : BitVec m :=
  BitVec.ofFnLE fun i => v.getLsb t[i]

/-- Table IP (R101). -/
def ipTable : PermTable 8 8 := #v[1, 3, 0, 4, 7, 5, 2, 6]

/-- Table IPI (R102). -/
def ipiTable : PermTable 8 8 := #v[2, 0, 6, 1, 3, 5, 7, 4]

/-- Table P10 (R103). -/
def p10Table : PermTable 10 10 := #v[4, 2, 1, 9, 0, 6, 3, 8, 5, 7]

/-- Table LS (R104). -/
def lsTable : PermTable 10 10 := #v[4, 0, 1, 2, 3, 9, 5, 6, 7, 8]

/-- Table P8 (R105; 90_conflicts.md C6). -/
def p8Table : PermTable 10 8 := #v[1, 0, 5, 2, 6, 3, 7, 4]

/-- Table EP (R106). -/
def epTable : PermTable 4 8 := #v[3, 0, 1, 2, 1, 2, 3, 0]

/-- Table P4 (R107). -/
def p4Table : PermTable 4 4 := #v[3, 1, 0, 2]

/-- Table SW, the half swap (R108, D26). -/
def swTable : PermTable 8 8 := #v[4, 5, 6, 7, 0, 1, 2, 3]

/-- The initial permutation (R101). -/
def ip (v : Block) : Block := permute v ipTable

/-- The inverse initial permutation (R102). -/
def ipi (v : Block) : Block := permute v ipiTable

/-- The key permutation P10 (R103). -/
def p10 (v : BitVec 10) : BitVec 10 := permute v p10Table

/-- The Left-Shift permutation: each 5-bit half rotates left by one place (R104). -/
def ls (v : BitVec 10) : BitVec 10 := permute v lsTable

/-- The compression permutation P8 (R105). -/
def p8 (v : BitVec 10) : BitVec 8 := permute v p8Table

/-- The expansion permutation EP (R106). -/
def ep (v : Half) : BitVec 8 := permute v epTable

/-- The output permutation P4 (R107). -/
def p4 (v : Half) : Half := permute v p4Table

/-- The half swap (R108). -/
def sw (v : Block) : Block := permute v swTable

/-- PIP data8 (R112). -/
def execPip (block : Block) (s : State) : Host.Outcome State Fault Refusal :=
  acceptCommand (complete (zext10 (ip block))) s

/-- PIPI data8 (R113). -/
def execPipi (block : Block) (s : State) : Host.Outcome State Fault Refusal :=
  acceptCommand (complete (zext10 (ipi block))) s

/-- PP10 data10 (R114). -/
def execPp10 (value : BitVec 10) (s : State) : Host.Outcome State Fault Refusal :=
  acceptCommand (complete (zext10 (p10 value))) s

/-- PLS data10 (R115). -/
def execPls (value : BitVec 10) (s : State) : Host.Outcome State Fault Refusal :=
  acceptCommand (complete (zext10 (ls value))) s

/-- PP8 data10 (R116). -/
def execPp8 (value : BitVec 10) (s : State) : Host.Outcome State Fault Refusal :=
  acceptCommand (complete (zext10 (p8 value))) s

/-- PEP data4 (R117). -/
def execPep (half : Half) (s : State) : Host.Outcome State Fault Refusal :=
  acceptCommand (complete (zext10 (ep half))) s

/-- PP4 data4 (R118). -/
def execPp4 (half : Half) (s : State) : Host.Outcome State Fault Refusal :=
  acceptCommand (complete (zext10 (p4 half))) s

/-- PSW data8 (R119). -/
def execPsw (block : Block) (s : State) : Host.Outcome State Fault Refusal :=
  acceptCommand (complete (zext10 (sw block))) s

end Sys2Proof.Machine
end

