-- ==== Sys2Proof/Config.lean ====
section
/-! DEFINITION. What an implementation may fix: the parameters SBOX0, SBOX1 and SBOX_ROW_MSB of R9 and R10.
Their normative value, the source's tables, is `Machine.sourceSBoxes` in Machine/Sbox.lean. LATENCY and
CMD_BYTE_ORDER of R10 are left out of the model (log entries 9 and 15); the engine has no free value. -/

namespace Sys2Proof

/-- An S-box: 4 rows by 4 columns of 2-bit entries, the outer index the row
(SBOX_ROWS, SBOX_COLS, SBOX_OUT_W of R8; R130, R131). -/
abbrev SBoxTable := Vector (Vector (BitVec 2) 4) 4

/-- The S-box parameters a model may vary: the two tables (R10, R136) and which of the two listed bits of an
index is the more significant (SBOX_ROW_MSB of R9; `true`: the first listed). -/
structure SBoxConfig where
  /-- SBOX0, the table of the high group. -/
  s0 : SBoxTable
  /-- SBOX1, the table of the low group. -/
  s1 : SBoxTable
  /-- SBOX_ROW_MSB: the first listed bit of an index is its high bit. -/
  firstListedIsHigh : Bool
deriving DecidableEq, Repr

end Sys2Proof
end

