-- ==== Sys2Proof/Machine/Sbox.lean ====
section
/-! DEFINITION. The S-box lookup tables and the substitution step (spec/41_sbox_unit.md), over any contents (R136),
and the command SBOX with the source's. -/

namespace Sys2Proof.Machine

/-- Table S0 (R130; the source's literal, 90_conflicts.md C1; log entry 7). -/
def s0Table : SBoxTable := #v[#v[1, 0, 3, 2], #v[3, 2, 1, 0], #v[0, 2, 1, 3], #v[3, 1, 3, 1]]

/-- Table S1 (R131; the source's literal, 90_conflicts.md C1; log entry 7). -/
def s1Table : SBoxTable := #v[#v[1, 1, 2, 3], #v[2, 0, 1, 3], #v[3, 0, 1, 0], #v[2, 1, 0, 3]]

/-- The normative S-boxes: the source's literals, the first listed bit of an index the high one (R130 to R132, D17 to
D19; log entry 7, UNVERIFIED, unsafe). -/
def sourceSBoxes : SBoxConfig := { s0 := s0Table, s1 := s1Table, firstListedIsHigh := true }

/-- `TableRead(S, row, col)`: the outer list is indexed by the row (R46, R130, D18). -/
def tableRead (t : SBoxTable) (row col : BitVec 2) : BitVec 2 := (t[row.toNat]'row.isLt)[col.toNat]'col.isLt

/-- The 2-bit index of two listed bits (R132, D17). -/
def sboxIndex (c : SBoxConfig) (first second : Bool) : BitVec 2 :=
  if c.firstListedIsHigh then BitVec.ofBool first ++ BitVec.ofBool second else BitVec.ofBool second ++ BitVec.ofBool first

/-- One 4-bit group through one table: the row from its outer bits, the column from its inner bits (R132). -/
def sboxGroup (c : SBoxConfig) (t : SBoxTable) (g : BitVec 4) : BitVec 2 :=
  tableRead t (sboxIndex c (g.getLsbD 3) (g.getLsbD 0)) (sboxIndex c (g.getLsbD 2) (g.getLsbD 1))

/-- `SBox(x)` for any contents: `s0 ++ s1`, s0 from the high group and s1 from the low group (R132). -/
def sboxWith (c : SBoxConfig) (x : BitVec 8) : Half :=
  sboxGroup c c.s0 (x.extractLsb' 4 4) ++ sboxGroup c c.s1 (x.extractLsb' 0 4)

/-- `SBox(x)` of the engine (R132). -/
def sbox (x : BitVec 8) : Half := sboxWith sourceSBoxes x

/-- SBOX data8 (R134). -/
def execSbox (value : BitVec 8) (s : State) : Host.Outcome State Fault Refusal :=
  acceptCommand (complete (zext10 (sbox value))) s

end Sys2Proof.Machine
end

