-- ==== Sys2Proof/Machine/Round.lean ====
section
/-! DEFINITION. The round function F and the Feistel step f (spec/42_round_function.md), over any S-box contents
(R136, R144), and the commands FRND and FSTEP. -/

namespace Sys2Proof.Machine

/-- `F(R, K) = P4(SBox(EP(R) ^ K))` (R140). -/
def roundWith (c : SBoxConfig) (r : Half) (k : Subkey) : Half := p4 (sboxWith c (ep r ^^^ k))

/-- The left half: the high 4 bits (R143). -/
def leftHalf (b : Block) : Half := b.extractLsb' 4 4

/-- The right half: the low 4 bits (R143). -/
def rightHalf (b : Block) : Half := b.extractLsb' 0 4

/-- `f(B, K) = (L ^ F(R, K)) ++ R` (R143). -/
def feistelWith (c : SBoxConfig) (b : Block) (k : Subkey) : Block :=
  (leftHalf b ^^^ roundWith c (rightHalf b) k) ++ rightHalf b

/-- The round function F of the engine (R140). -/
def roundF (r : Half) (k : Subkey) : Half := roundWith sourceSBoxes r k

/-- The Feistel step f of the engine (R143). -/
def feistel (b : Block) (k : Subkey) : Block := feistelWith sourceSBoxes b k

/-- FRND ksel, data4 (R142). -/
def execFrnd (sel : SubkeySel) (half : Half) (s : State) : Host.Outcome State Fault Refusal :=
  acceptCommand (withSubkey sel fun k => zext10 (roundF half k)) s

/-- FSTEP ksel, data8 (R145). -/
def execFstep (sel : SubkeySel) (block : Block) (s : State) : Host.Outcome State Fault Refusal :=
  acceptCommand (withSubkey sel fun k => zext10 (feistel block k)) s

end Sys2Proof.Machine
end

