-- ==== Sys2Proof/Machine/BlockCipher.lean ====
section
/-! DEFINITION. Block encryption and decryption (spec/44_block_cipher.md), over any S-box contents (R136), and the
commands ENC and DEC. -/

namespace Sys2Proof.Machine

/-- `BlockEncrypt(B, Ka, Kb)`: IP, a Feistel step with Ka, the half swap, a Feistel step with Kb, inverse IP (R170). -/
def blockEncryptWith (c : SBoxConfig) (b : Block) (ka kb : Subkey) : Block :=
  ipi (feistelWith c (sw (feistelWith c (ip b) ka)) kb)

/-- `BlockDecrypt(B, Ka, Kb) = BlockEncrypt(B, Kb, Ka)` (R171). -/
def blockDecryptWith (c : SBoxConfig) (b : Block) (ka kb : Subkey) : Block := blockEncryptWith c b kb ka

/-- BlockEncrypt of the engine (R170). -/
def blockEncrypt (b : Block) (ka kb : Subkey) : Block := blockEncryptWith sourceSBoxes b ka kb

/-- BlockDecrypt of the engine (R171). -/
def blockDecrypt (b : Block) (ka kb : Subkey) : Block := blockDecryptWith sourceSBoxes b ka kb

/-- ENC data8 (R173): K1 is Ka and K2 is Kb, always (R174). -/
def execEnc (block : Block) (s : State) : Host.Outcome State Fault Refusal :=
  acceptCommand (withSubkeyPair fun a b => zext10 (blockEncrypt block a b)) s

/-- DEC data8 (R175): the registers are exchanged in their use only. -/
def execDec (block : Block) (s : State) : Host.Outcome State Fault Refusal :=
  acceptCommand (withSubkeyPair fun a b => zext10 (blockDecrypt block a b)) s

end Sys2Proof.Machine
end

