-- ==== Sys2Proof/Machine/KeySchedule.lean ====
section
/-! DEFINITION. The key schedule and the commands over the subkey registers (spec/43_key_schedule.md): KEYLD, SKLD,
SKRD, KEYCLR. -/

namespace Sys2Proof.Machine

/-- `KeySchedule(k)`: the second rotation is one more place applied to the first's result (R150; 90_conflicts.md C2). -/
def keySchedule (k : MasterKey) : Subkey × Subkey :=
  let shifted1 := ls (p10 k)
  let shifted2 := ls shifted1
  (p8 shifted1, p8 shifted2)

/-- KEYLD data10 (R153): the response carries no key material. -/
def execKeyld (key : MasterKey) (s : State) : Host.Outcome State Fault Refusal :=
  acceptCommand (fun t => complete 0#10 (t.loadPair (keySchedule key).1 (keySchedule key).2)) s

/-- SKLD ksel, data8 (R155). -/
def execSkld (sel : SubkeySel) (value : Subkey) (s : State) : Host.Outcome State Fault Refusal :=
  acceptCommand (fun t => complete 0#10 (t.loadSubkey sel value)) s

/-- KEYCLR (R159): FAULT and CAUSE are not cleared. -/
def execKeyclr (s : State) : Host.Outcome State Fault Refusal :=
  acceptCommand (fun t => complete 0#10 t.clearPair) s

/-- SKRD ksel (R157). -/
def execSkrd (sel : SubkeySel) (s : State) : Host.Outcome State Fault Refusal :=
  acceptCommand (withSubkey sel fun k => zext10 k) s

end Sys2Proof.Machine
end

