-- ==== Sys2Proof/Machine/Dispatch.lean ====
section
/-! DEFINITION. One arm per command of the opcode map (R65), each one direct call of its meaning. -/

namespace Sys2Proof.Machine

def exec (i : Instr) (s : State) : Host.Outcome State Fault Refusal :=
  match i with
  -- the key registers (43_key_schedule.md)
  | .keyld key => Sys2Proof.Machine.execKeyld key s
  | .skld sel value => Sys2Proof.Machine.execSkld sel value s
  | .keyclr => Sys2Proof.Machine.execKeyclr s
  | .skrd sel => Sys2Proof.Machine.execSkrd sel s
  -- the block cipher (44_block_cipher.md)
  | .enc block => Sys2Proof.Machine.execEnc block s
  | .dec block => Sys2Proof.Machine.execDec block s
  -- the permutation unit (40_permutation_unit.md)
  | .pip block => Sys2Proof.Machine.execPip block s
  | .pipi block => Sys2Proof.Machine.execPipi block s
  | .pp10 value => Sys2Proof.Machine.execPp10 value s
  | .pls value => Sys2Proof.Machine.execPls value s
  | .pp8 value => Sys2Proof.Machine.execPp8 value s
  | .pep half => Sys2Proof.Machine.execPep half s
  | .pp4 half => Sys2Proof.Machine.execPp4 half s
  | .psw block => Sys2Proof.Machine.execPsw block s
  -- the substitution and round units (41_sbox_unit.md, 42_round_function.md)
  | .sbox value => Sys2Proof.Machine.execSbox value s
  | .frnd sel half => Sys2Proof.Machine.execFrnd sel half s
  | .fstep sel block => Sys2Proof.Machine.execFstep sel block s

end Sys2Proof.Machine
end

