-- ==== Sys2Proof/Machine/Step.lean ====
section
/-! DEFINITION. One step of the engine: it takes the host's next command or reset and answers it whole (R44, R50, R70).
Its parts are in Machine/Ops.lean, Decode.lean and Machine/Dispatch.lean. -/

namespace Sys2Proof.Machine

/-- One accepted command, one reset, or waiting (R44, R70). -/
def step (s : State) : Host.Outcome State Fault Refusal :=
  match takeEvent s with
  | none => .next (idle s)
  | some (.reset, t) => .next (applyReset t)
  | some (.command w, t) =>
    match decode w with
    | .ok i => exec i t
    | .error e => rejectWord e t

/-- The state in which the very next step takes the command word with those bits: the host presents it
(log entry 11). -/
def State.withFetchWord (s : State) (nbits w : Nat) : State := presentWord (tableWord nbits w) s

end Sys2Proof.Machine
end

