-- ==== Sys2Proof/Machine/Assembler.lean ====
section
/-! DEFINITION. The assembler and disassembler of R73, host-side tools of the spec. Text is a list of characters; what
R73 does not say about blanks and letter case is log entry 13. -/

namespace Sys2Proof.Machine

/-- The instruction of a line: none where the line is ill formed (R73). -/
def instrOfLine (l : AsmLine) : Option Instr :=
  if l.wellFormed then some (l.mnemonic.build (l.ksel.getD .k1) (BitVec.ofNat 10 (l.data.getD 0))) else none

/-- Assembling a line: the operand in the low bits of DATA, 0 in the ignored bits and, for D formats, in KS (R73). -/
def assemble (l : AsmLine) : Option CmdWord := (instrOfLine l).map encode

/-- Disassembling a word: none where the word is no command (R73). -/
def disassemble (w : CmdWord) : Option AsmLine :=
  match decode w with
  | .ok i => some (lineOf i)
  | .error _ => none

/-- The mnemonic as text, upper case (R73). -/
def nameOf : Mnemonic → List Char
  | .keyld => ['K', 'E', 'Y', 'L', 'D']
  | .skld => ['S', 'K', 'L', 'D']
  | .keyclr => ['K', 'E', 'Y', 'C', 'L', 'R']
  | .skrd => ['S', 'K', 'R', 'D']
  | .enc => ['E', 'N', 'C']
  | .dec => ['D', 'E', 'C']
  | .pip => ['P', 'I', 'P']
  | .pipi => ['P', 'I', 'P', 'I']
  | .pp10 => ['P', 'P', '1', '0']
  | .pls => ['P', 'L', 'S']
  | .pp8 => ['P', 'P', '8']
  | .pep => ['P', 'E', 'P']
  | .pp4 => ['P', 'P', '4']
  | .psw => ['P', 'S', 'W']
  | .sbox => ['S', 'B', 'O', 'X']
  | .frnd => ['F', 'R', 'N', 'D']
  | .fstep => ['F', 'S', 'T', 'E', 'P']

/-- The mnemonic a text names. -/
def mnemonicOfName (cs : List Char) : Option Mnemonic := Mnemonic.all.find? fun m => nameOf m == cs

/-- The value of a digit, in either letter case (log entry 13). -/
def digitValue (c : Char) : Option Nat :=
  let n := c.toNat
  if '0'.toNat ≤ n ∧ n ≤ '9'.toNat then some (n - '0'.toNat)
  else if 'a'.toNat ≤ n ∧ n ≤ 'f'.toNat then some (n - 'a'.toNat + 10)
  else if 'A'.toNat ≤ n ∧ n ≤ 'F'.toNat then some (n - 'A'.toNat + 10)
  else none

/-- Digits of a base, most significant first, after a value already read. -/
def readDigits (base : Nat) (acc : Nat) : List Char → Option Nat
  | [] => some acc
  | c :: cs =>
    match digitValue c with
    | some d => if d < base then readDigits base (acc * base + d) cs else none
    | none => none

/-- At least one digit of a base. -/
def readNumber (base : Nat) (cs : List Char) : Option Nat := if cs.isEmpty then none else readDigits base 0 cs

/-- `data`: hexadecimal after 0x, binary after 0b, else decimal (R73). -/
def readData : List Char → Option Nat
  | '0' :: 'x' :: cs => readNumber 16 cs
  | '0' :: 'b' :: cs => readNumber 2 cs
  | cs => readNumber 10 cs

/-- `ksel` (R73). -/
def readKsel : List Char → Option SubkeySel
  | ['K', '1'] => some .k1
  | ['K', '2'] => some .k2
  | _ => none

/-- Blanks that separate parts of a line (log entry 13). -/
def isBlank (c : Char) : Bool := c == ' ' || c == '\t'

/-- Text without the blanks at its ends. -/
def trimBlanks (cs : List Char) : List Char := ((cs.dropWhile isBlank).reverse.dropWhile isBlank).reverse

/-- The operands of a line: nothing; a register; a number; or a register, a comma and a number (R73). -/
def readOperands (cs : List Char) : Option (Option SubkeySel × Option Nat) :=
  let before := trimBlanks (cs.takeWhile (· != ','))
  let after := cs.dropWhile (· != ',')
  match after with
  | [] =>
    if before.isEmpty then some (none, none)
    else
      match readKsel before with
      | some sel => some (some sel, none)
      | none => (readData before).map fun d => (none, some d)
  | _ :: rest =>
    match readKsel before, readData (trimBlanks rest) with
    | some sel, some d => some (some sel, some d)
    | _, _ => none

/-- A line of text: the comment after ';' dropped, then the mnemonic, then its operands (R73). -/
def readLine (cs : List Char) : Option AsmLine :=
  let text := trimBlanks (cs.takeWhile (· != ';'))
  match mnemonicOfName (text.takeWhile fun c => !isBlank c), readOperands (text.dropWhile fun c => !isBlank c) with
  | some m, some (ksel, data) => some ⟨m, ksel, data⟩
  | _, _ => none

/-- The word of a line of text (R73). -/
def assembleText (cs : List Char) : Option CmdWord := (readLine cs).bind assemble

end Sys2Proof.Machine
end

