-- ==== Sys2Proof/Machine/Codec.lean ====
section
/-! DEFINITION. The message procedure the host runs over the engine (spec/45_message_codec.md): MsgEncrypt and
MsgDecrypt, and the pseudo-instructions MSGENC and MSGDEC (R74). A character is its code point, a natural number
(R185); a code point above 255 is truncated (R189, D16; log entry 10). -/

namespace Sys2Proof.Machine

/-- `low8(p) = p mod 256`, the block of a character (R189). -/
def low8 (codepoint : Nat) : Block := BitVec.ofNat 8 codepoint

/-- `key[9:0]`: bits 0 to 9 of a key (R185). -/
def keyBits (key : Nat) : MasterKey := BitVec.ofNat 10 key

/-- `MsgEncrypt(msg, key)`: the schedule once, then each character on its own, in message order (R185). -/
def msgEncrypt (msg : List Nat) (key : Nat) : List Nat :=
  msg.map fun c => (blockEncrypt (low8 c) (keySchedule (keyBits key)).1 (keySchedule (keyBits key)).2).toNat

/-- `MsgDecrypt(msg, key)`: the same with BlockDecrypt (R186). -/
def msgDecrypt (msg : List Nat) (key : Nat) : List Nat :=
  msg.map fun c => (blockDecrypt (low8 c) (keySchedule (keyBits key)).1 (keySchedule (keyBits key)).2).toNat

/-- The command list MSGENC expands into: KEYLD, one ENC a character, KEYCLR (R190). -/
def msgencCommands (key : Nat) (msg : List Nat) : List CmdWord :=
  encode (.keyld (keyBits key)) :: (msg.map fun c => encode (.enc (low8 c))) ++ [encode .keyclr]

/-- The command list MSGDEC expands into (R191). -/
def msgdecCommands (key : Nat) (msg : List Nat) : List CmdWord :=
  encode (.keyld (keyBits key)) :: (msg.map fun c => encode (.dec (low8 c))) ++ [encode .keyclr]

/-- The output message read from the responses to such a list: `data[7:0]` of the response to each block command, that
is of all but the first and the last (R190). -/
def msgOutput (rs : List Response) : List Nat := (rs.drop 1).dropLast.map fun r => (operand8 r.data).toNat

end Sys2Proof.Machine
end

