-- ==== Sys2Proof/Safety.lean ====
section
/-! DEFINITION. What claims about runs are stated in: the invariants of every reachable state (R24, R26), a run gone
wrong (R208, R245), and two states with the same registers. -/

namespace Sys2Proof

namespace Machine

/-- The invariants of R24 and R26: a subkey register whose valid bit is 0 holds 0; FAULT is 0 exactly when CAUSE is;
a faulted engine holds no valid subkey and no key material; CAUSE takes only the values 0 to 3. -/
abbrev State.Inv (s : State) : Prop :=
  (s.v1 = false → s.k1 = 0x00#8) ∧ (s.v2 = false → s.k2 = 0x00#8) ∧
  (s.fault = false ↔ s.cause = 0#3) ∧
  (s.fault = true → s.v1 = false ∧ s.v2 = false ∧ s.k1 = 0x00#8 ∧ s.k2 = 0x00#8) ∧
  s.cause.toNat ≤ 3

/-- A run that has reached this state has gone wrong (R208, R245). -/
abbrev State.GoneWrong (s : State) : Prop := s.fault = true

/-- The six registers of R20 agree: the two states are one architectural state. -/
abbrev State.SameRegisters (s t : State) : Prop :=
  s.k1 = t.k1 ∧ s.k2 = t.k2 ∧ s.v1 = t.v1 ∧ s.v2 = t.v2 ∧ s.fault = t.fault ∧ s.cause = t.cause

end Machine

end Sys2Proof
end

