-- ==== Sys2Proof/Certificates/Slice0/Obligations.lean ====
section
/-! DEFINITION. The statements for the provers. In them `⟨err, data⟩` is a response, `BitVec.ofBool v[i]` is `bit(v, i)`
of R12, and a state written `{ s with … }` has every field not named as in `s`: so an equation for the next state is
also the command's frame. -/

open Sys2Proof Sys2Proof.Machine

/-! Encoding (30_encoding.md) -/

/-- Decoding the word of any instruction gives that instruction back, at every operand value (R61, R64, R65, R73). -/
def Obligations.EncodeThenDecode : Prop := ∀ i : Instr, decode (encode i) = .ok i

/-- R65: the opcode map row by row, as spec/opcode_table.json lists it. A word decodes to a command of a row exactly
when `w & mask = match`, and KS and DATA never select a different command. -/
def Obligations.WordSelectsTableRow : Prop :=
  ∀ (w : CmdWord) (m : Mnemonic) (mtch mask : CmdWord),
    (m, mtch, mask) ∈
      [(Mnemonic.keyld, 0x0800#16, 0xFC00#16), (.skld, 0x1000#16, 0xF800#16), (.keyclr, 0x1800#16, 0xFC00#16),
       (.skrd, 0x2000#16, 0xF800#16), (.enc, 0x4000#16, 0xFC00#16), (.dec, 0x4800#16, 0xFC00#16),
       (.pip, 0x8000#16, 0xFC00#16), (.pipi, 0x8800#16, 0xFC00#16), (.pp10, 0x9000#16, 0xFC00#16),
       (.pls, 0x9800#16, 0xFC00#16), (.pp8, 0xA000#16, 0xFC00#16), (.pep, 0xA800#16, 0xFC00#16),
       (.pp4, 0xB000#16, 0xFC00#16), (.psw, 0xB800#16, 0xFC00#16), (.sbox, 0xC000#16, 0xFC00#16),
       (.frnd, 0xC800#16, 0xF800#16), (.fstep, 0xD000#16, 0xF800#16)] →
    ((∃ i, decode w = .ok i ∧ i.mnemonic = m) ↔ w &&& mask = mtch)

/-- R62: a command uses the low `n` bits of DATA, `n` fixed by its format, as its operand; the bits of DATA above them
do not change what the word decodes to and never make it illegal. -/
def Obligations.HighDataBitsIgnored : Prop :=
  ∀ (w : CmdWord) (i : Instr), decode w = .ok i →
    i.dataBits.toNat = w.toNat % 2 ^ operandWidth (formatOf i.mnemonic) ∧
    ∀ w' : CmdWord, w' >>> 10 = w >>> 10 →
      (∀ n < operandWidth (formatOf i.mnemonic), w'.getLsbD n = w.getLsbD n) → decode w' = .ok i

/-- The word of each command as the number its rule gives: the row's word, 0x0400 for KS = 1, and the operand
(R61, R65). -/
def Obligations.WordOfEachCommand : Prop :=
  (∀ k, (encode (.keyld k)).toNat = 0x0800 + k.toNat) ∧
  (∀ v, (encode (.skld .k1 v)).toNat = 0x1000 + v.toNat ∧ (encode (.skld .k2 v)).toNat = 0x1400 + v.toNat) ∧
  (encode .keyclr).toNat = 0x1800 ∧
  (encode (.skrd .k1)).toNat = 0x2000 ∧ (encode (.skrd .k2)).toNat = 0x2400 ∧
  (∀ b, (encode (.enc b)).toNat = 0x4000 + b.toNat ∧ (encode (.dec b)).toNat = 0x4800 + b.toNat) ∧
  (∀ b, (encode (.pip b)).toNat = 0x8000 + b.toNat ∧ (encode (.pipi b)).toNat = 0x8800 + b.toNat) ∧
  (∀ v, (encode (.pp10 v)).toNat = 0x9000 + v.toNat ∧ (encode (.pls v)).toNat = 0x9800 + v.toNat ∧
    (encode (.pp8 v)).toNat = 0xA000 + v.toNat) ∧
  (∀ r, (encode (.pep r)).toNat = 0xA800 + r.toNat ∧ (encode (.pp4 r)).toNat = 0xB000 + r.toNat) ∧
  (∀ b, (encode (.psw b)).toNat = 0xB800 + b.toNat ∧ (encode (.sbox b)).toNat = 0xC000 + b.toNat) ∧
  (∀ r, (encode (.frnd .k1 r)).toNat = 0xC800 + r.toNat ∧ (encode (.frnd .k2 r)).toNat = 0xCC00 + r.toNat) ∧
  (∀ b, (encode (.fstep .k1 b)).toNat = 0xD000 + b.toNat ∧ (encode (.fstep .k2 b)).toNat = 0xD400 + b.toNat)

/-- Words of each family, legal and illegal, decode as 96_test_vectors_decode_and_faults.md section 8a and the examples
of the command rules say (R65, R66, R67). -/
def Obligations.DecodeOfListedWords : Prop :=
  decode 0x09FD#16 = .ok (.keyld 0x1FD#10) ∧ decode 0x1743#16 = .ok (.skld .k2 0x43#8) ∧
  decode 0x4302#16 = .ok (.enc 0x02#8) ∧ decode 0x91FD#16 = .ok (.pp10 0x1FD#10) ∧
  decode 0xABF1#16 = .ok (.pep 0x1#4) ∧ decode 0xC0DD#16 = .ok (.sbox 0xDD#8) ∧
  decode 0xCC09#16 = .ok (.frnd .k2 0x9#4) ∧ decode 0xD419#16 = .ok (.fstep .k2 0x19#8) ∧
  decode 0x0000#16 = .error .illegalOpcode ∧ decode 0xFFFF#16 = .error .illegalOpcode ∧
  decode 0x4402#16 = .error .reservedField

/-- Assembling the line an instruction prints as gives its word and disassembling the word gives the line back; a line
is refused exactly when it is ill formed; and `FSTEP K2, 0x19` assembles to 0xD419, as text too (R73). -/
def Obligations.AssembleAndDisassemble : Prop :=
  (∀ i : Instr, assemble (lineOf i) = some (encode i) ∧ disassemble (encode i) = some (lineOf i)) ∧
  (∀ l : AsmLine, assemble l = none ↔ l.wellFormed = false) ∧
  (∀ (l : AsmLine) (w : CmdWord), assemble l = some w → disassemble w = some l) ∧
  assembleText ['F', 'S', 'T', 'E', 'P', ' ', 'K', '2', ',', ' ', '0', 'x', '1', '9'] = some 0xD419#16

/-! Reset and the step -/

/-- R32: after reset every register is 0 and SR reads 0x00, both in the model's reset state and, from whatever state, in
the state a reset leads to (R230). What the host does next and what it was answered stay as they were
(log entry 4, the model's choice). -/
def Obligations.ResetClearsEveryRegister : Prop :=
  (State.reset.k1 = 0x00#8 ∧ State.reset.k2 = 0x00#8 ∧ State.reset.v1 = false ∧ State.reset.v2 = false ∧
    State.reset.fault = false ∧ State.reset.cause = 0#3 ∧ State.reset.sr = 0x00#8) ∧
  ∀ (s : State) (rest : List HostEvent), s.pending = .reset :: rest →
    step s = .next { k1 := 0x00#8, k2 := 0x00#8, v1 := false, v2 := false, fault := false, cause := 0#3,
                     pending := rest, responses := s.responses }

/-- With nothing presented the engine waits and no state changes (R216; log entry 3, the model's reading). -/
def Obligations.IdleChangesNothing : Prop := ∀ s : State, s.pending = [] → step s = .next s

/-- When the host's next word decodes to an instruction, the step is that instruction's meaning, with the word taken
(R41, R70). -/
def Obligations.StepRunsDecodedCommand : Prop :=
  ∀ (s : State) (w : CmdWord) (rest : List HostEvent) (i : Instr),
    s.pending = .command w :: rest → decode w = .ok i → step s = exec i { s with pending := rest }

/-- Every state has a next state: no step hangs or stops, whatever the word (R69, R70, R246). -/
def Obligations.EveryStepAnswers : Prop := ∀ s : State, ∃ t, step s = .next t

/-- Each accepted command gets exactly one response, in command order. Its error bit is 1 exactly when the engine is
then in the faulted state, and then its data is the recorded cause (R42, R43, R208). -/
def Obligations.OneResponsePerCommand : Prop :=
  ∀ (s : State) (w : CmdWord) (rest : List HostEvent), s.pending = .command w :: rest →
    ∃ t r, step s = .next t ∧ t.pending = rest ∧ t.responses = s.responses ++ [r] ∧
      (r.err = true ↔ t.fault = true) ∧ (r.err = true → r.data = t.cause.setWidth 10)

/-- R15, R70: the response and the next registers are a function of the word and the registers before, and of nothing
else: not of earlier responses, nor of what the host does later. -/
def Obligations.StepDependsOnWordAndRegisters : Prop :=
  ∀ (s s' : State) (w : CmdWord) (rest rest' : List HostEvent), s.SameRegisters s' →
    s.pending = .command w :: rest → s'.pending = .command w :: rest' →
    ∃ t t' r, step s = .next t ∧ step s' = .next t' ∧ t.SameRegisters t' ∧
      t.responses = s.responses ++ [r] ∧ t'.responses = s'.responses ++ [r]

/-! Invariants (10_state.md) -/

/-- The reset state meets the invariants of R24 and R26. -/
def Obligations.ResetMeetsInvariants : Prop := State.reset.Inv

/-- Every step keeps the invariants of R24 and R26, from every state that meets them: a register whose valid bit is 0
holds 0, FAULT and CAUSE agree, a faulted engine holds no key, CAUSE is at most 3. -/
def Obligations.EveryStepKeepsInvariants : Prop := ∀ s t : State, s.Inv → step s = .next t → t.Inv

/-- R27: SR is FAULT in bit 7, CAUSE in 6:4, 0 in 3:2, V2 in bit 1 and V1 in bit 0, so K1 and K2 are not visible in it;
it is 0x00 after reset; and the `fault` pin is its bit 7 (R40). -/
def Obligations.StatusRegisterFields : Prop :=
  (∀ s : State, s.sr.getLsbD 7 = s.fault ∧ s.sr.extractLsb' 4 3 = s.cause ∧ s.sr.extractLsb' 2 2 = 0b00#2 ∧
    s.sr.getLsbD 1 = s.v2 ∧ s.sr.getLsbD 0 = s.v1 ∧ s.faultPin = s.sr.getLsbD 7) ∧
  State.reset.sr = 0x00#8

/-! Faults (60_exceptions.md) -/

/-- R66, R202: a word whose OP is one of the 15 reserved values faults with ILLEGAL_OPCODE, whatever KS and DATA hold,
the all-zeros and the all-ones word among them (R68). -/
def Obligations.ReservedOpcodeFaults : Prop :=
  (∀ (s : State) (w : CmdWord) (rest : List HostEvent), s.fault = false → s.pending = .command w :: rest →
    w.extractLsb' 11 5 ∈
      [0x00#5, 0x05#5, 0x06#5, 0x07#5, 0x0A#5, 0x0B#5, 0x0C#5, 0x0D#5, 0x0E#5, 0x0F#5, 0x1B#5, 0x1C#5, 0x1D#5, 0x1E#5,
       0x1F#5] →
    step s = .next { k1 := 0x00#8, k2 := 0x00#8, v1 := false, v2 := false, fault := true, cause := 1#3,
                     pending := rest, responses := s.responses ++ [⟨true, 1#10⟩] }) ∧
  (0x0000#16).extractLsb' 11 5 = 0x00#5 ∧ (0xFFFF#16).extractLsb' 11 5 = 0x1F#5

/-- R67: a command whose OP is assigned with a D format and whose KS is 1 faults with RESERVED_FIELD, whatever DATA and
the valid bits hold. -/
def Obligations.ReservedFieldFaults : Prop :=
  ∀ (s : State) (w : CmdWord) (rest : List HostEvent), s.fault = false → s.pending = .command w :: rest →
    w.extractLsb' 11 5 ∈
      [0x01#5, 0x03#5, 0x08#5, 0x09#5, 0x10#5, 0x11#5, 0x12#5, 0x13#5, 0x14#5, 0x15#5, 0x16#5, 0x17#5, 0x18#5] →
    w.getLsbD 10 = true →
    step s = .next { k1 := 0x00#8, k2 := 0x00#8, v1 := false, v2 := false, fault := true, cause := 2#3,
                     pending := rest, responses := s.responses ++ [⟨true, 2#10⟩] }

/-- R201: a command that would use a subkey register whose valid bit is 0 faults with SUBKEY_INVALID and computes
nothing: ENC and DEC when either valid bit is 0, SKRD, FRND and FSTEP when the selected one is. -/
def Obligations.InvalidSubkeyFaults : Prop :=
  ∀ s : State, s.fault = false →
    (∀ i : Instr,
      (((∃ b, i = .enc b ∨ i = .dec b) ∧ (s.v1 = false ∨ s.v2 = false)) ∨
       ((i = .skrd .k1 ∨ (∃ r, i = .frnd .k1 r) ∨ ∃ b, i = .fstep .k1 b) ∧ s.v1 = false) ∨
       ((i = .skrd .k2 ∨ (∃ r, i = .frnd .k2 r) ∨ ∃ b, i = .fstep .k2 b) ∧ s.v2 = false)) →
      exec i s = .next { s with k1 := 0x00#8, k2 := 0x00#8, v1 := false, v2 := false, fault := true, cause := 3#3,
                                responses := s.responses ++ [⟨true, 3#10⟩] })

/-- R205, R70: the fault a command raises is the first that applies of ILLEGAL_OPCODE, RESERVED_FIELD and
SUBKEY_INVALID, and it raises none when none applies. -/
def Obligations.FirstApplicableFaultIsRaised : Prop :=
  ∀ (s : State) (w : CmdWord) (rest : List HostEvent), s.fault = false → s.pending = .command w :: rest →
    ∃ t, step s = .next t ∧
      (if w.extractLsb' 11 5 ∈
          [0x00#5, 0x05#5, 0x06#5, 0x07#5, 0x0A#5, 0x0B#5, 0x0C#5, 0x0D#5, 0x0E#5, 0x0F#5, 0x1B#5, 0x1C#5, 0x1D#5,
           0x1E#5, 0x1F#5] then t.fault = true ∧ t.cause = 1#3
       else if w.extractLsb' 11 5 ∉ [0x02#5, 0x04#5, 0x19#5, 0x1A#5] ∧ w.getLsbD 10 = true then
         t.fault = true ∧ t.cause = 2#3
       else if (w.extractLsb' 11 5 ∈ [0x08#5, 0x09#5] ∧ (s.v1 = false ∨ s.v2 = false)) ∨
          (w.extractLsb' 11 5 ∈ [0x04#5, 0x19#5, 0x1A#5] ∧ (if w.getLsbD 10 then s.v2 else s.v1) = false) then
         t.fault = true ∧ t.cause = 3#3
       else t.fault = false ∧ t.cause = s.cause)

/-- R204: fault entry is the whole effect of a faulting command, whichever command it is and whichever of the three
codes it has: the key material destroyed, FAULT and CAUSE written, the code in the response, nothing else changed. -/
def Obligations.FaultEntryIsWholeEffect : Prop :=
  ∀ (s t : State) (w : CmdWord) (rest : List HostEvent), s.fault = false → s.pending = .command w :: rest →
    step s = .next t → t.fault = true →
    ∃ code ∈ [1#3, 2#3, 3#3],
      t = { k1 := 0x00#8, k2 := 0x00#8, v1 := false, v2 := false, fault := true, cause := code,
            pending := rest, responses := s.responses ++ [⟨true, code.setWidth 10⟩] }

/-- R206: while FAULT is 1 every accepted command, whatever its word, changes no register and responds with error and
the recorded first cause; SR then reads `0b1ccc0000`. -/
def Obligations.FaultedStateRefusesEveryCommand : Prop :=
  (∀ (s : State) (w : CmdWord) (rest : List HostEvent), s.fault = true → s.pending = .command w :: rest →
    step s = .next { s with pending := rest, responses := s.responses ++ [⟨true, s.cause.setWidth 10⟩] }) ∧
  ∀ s : State, s.Inv → s.fault = true → s.sr = 0b1#1 ++ s.cause ++ 0b0000#4

/-- R25, R208: FAULT, once set, and CAUSE with it, change only by reset. -/
def Obligations.OnlyResetClearsFault : Prop :=
  ∀ s t : State, step s = .next t → s.fault = true → (¬ ∃ rest, s.pending = .reset :: rest) →
    t.fault = true ∧ t.cause = s.cause

/-! Frames and what each command does -/

/-- The frame of every command that completes without a fault (R21, R23, R33, R51): it leaves FAULT, CAUSE and the
host's list alone and adds one response with error bit 0; only KEYLD, SKLD and KEYCLR change a subkey register or a
valid bit, and SKLD only those of the register it selects. -/
def Obligations.FrameOfCompletedCommands : Prop :=
  ∀ (i : Instr) (s t : State), s.fault = false → exec i s = .next t → t.fault = false →
    t.pending = s.pending ∧ t.cause = s.cause ∧
    (∃ d, t.responses = s.responses ++ [⟨false, d⟩]) ∧
    (i.mnemonic ∉ [.keyld, .skld, .keyclr] → s.SameRegisters t) ∧
    (∀ v, i = .skld .k1 v → t.k2 = s.k2 ∧ t.v2 = s.v2) ∧
    (∀ v, i = .skld .k2 v → t.k1 = s.k1 ∧ t.v1 = s.v1)

/-- KEYLD loads the two subkeys of the schedule, as bits of the master key (R152), sets both valid bits and responds
with no data (R153). -/
def Obligations.KeyldLoadsBothSubkeys : Prop :=
  ∀ (k : MasterKey) (s : State), s.fault = false →
    exec (.keyld k) s = .next { s with
      k1 := BitVec.ofBool k[9] ++ BitVec.ofBool k[3] ++ BitVec.ofBool k[1] ++ BitVec.ofBool k[6] ++
            BitVec.ofBool k[2] ++ BitVec.ofBool k[7] ++ BitVec.ofBool k[0] ++ BitVec.ofBool k[4],
      k2 := BitVec.ofBool k[1] ++ BitVec.ofBool k[6] ++ BitVec.ofBool k[2] ++ BitVec.ofBool k[7] ++
            BitVec.ofBool k[4] ++ BitVec.ofBool k[5] ++ BitVec.ofBool k[9] ++ BitVec.ofBool k[0],
      v1 := true, v2 := true, responses := s.responses ++ [⟨false, 0#10⟩] }

/-- SKLD loads the selected subkey register and sets its valid bit; the other register and its valid bit are untouched
(R155). -/
def Obligations.SkldLoadsSelectedSubkey : Prop :=
  ∀ (v : Subkey) (s : State), s.fault = false →
    exec (.skld .k1 v) s = .next { s with k1 := v, v1 := true, responses := s.responses ++ [⟨false, 0#10⟩] } ∧
    exec (.skld .k2 v) s = .next { s with k2 := v, v2 := true, responses := s.responses ++ [⟨false, 0#10⟩] }

/-- KEYCLR clears both subkey registers and both valid bits (R159). -/
def Obligations.KeyclrClearsBothSubkeys : Prop :=
  ∀ s : State, s.fault = false →
    exec .keyclr s = .next { s with k1 := 0x00#8, k2 := 0x00#8, v1 := false, v2 := false,
                                    responses := s.responses ++ [⟨false, 0#10⟩] }

/-- SKRD responds with the selected subkey, zero-extended, and changes nothing; only the selected register need be
valid (R157). -/
def Obligations.SkrdRespondsSelectedSubkey : Prop :=
  ∀ s : State, s.fault = false →
    (s.v1 = true → exec (.skrd .k1) s = .next { s with responses := s.responses ++ [⟨false, 0b00#2 ++ s.k1⟩] }) ∧
    (s.v2 = true → exec (.skrd .k2) s = .next { s with responses := s.responses ++ [⟨false, 0b00#2 ++ s.k2⟩] })

/-- ENC responds with the block encrypted with K1 first and K2 second, step by step as R170 has it, and changes nothing
(R173, R174). -/
def Obligations.EncRespondsCiphertext : Prop :=
  ∀ (b : Block) (s : State), s.fault = false → s.v1 = true → s.v2 = true →
    exec (.enc b) s = .next { s with
      responses := s.responses ++ [⟨false, 0b00#2 ++ ipi (feistel (sw (feistel (ip b) s.k1)) s.k2)⟩] }

/-- DEC responds with the same computation with the two subkeys exchanged, and changes nothing; the registers are not
exchanged (R171, R175). -/
def Obligations.DecRespondsPlaintext : Prop :=
  ∀ (b : Block) (s : State), s.fault = false → s.v1 = true → s.v2 = true →
    exec (.dec b) s = .next { s with
      responses := s.responses ++ [⟨false, 0b00#2 ++ ipi (feistel (sw (feistel (ip b) s.k2)) s.k1)⟩] }

/-- PIP, PIPI and PSW respond with the bits of the operand as R101, R102 and R108 write them out; no subkey is needed
and nothing changes (R112, R113, R119). -/
def Obligations.BlockPermutationCommands : Prop :=
  ∀ (v : Block) (s : State), s.fault = false →
    exec (.pip v) s = .next { s with responses := s.responses ++ [⟨false, 0b00#2 ++
      (BitVec.ofBool v[6] ++ BitVec.ofBool v[2] ++ BitVec.ofBool v[5] ++ BitVec.ofBool v[7] ++
       BitVec.ofBool v[4] ++ BitVec.ofBool v[0] ++ BitVec.ofBool v[3] ++ BitVec.ofBool v[1])⟩] } ∧
    exec (.pipi v) s = .next { s with responses := s.responses ++ [⟨false, 0b00#2 ++
      (BitVec.ofBool v[4] ++ BitVec.ofBool v[7] ++ BitVec.ofBool v[5] ++ BitVec.ofBool v[3] ++
       BitVec.ofBool v[1] ++ BitVec.ofBool v[6] ++ BitVec.ofBool v[0] ++ BitVec.ofBool v[2])⟩] } ∧
    exec (.psw v) s = .next { s with responses := s.responses ++ [⟨false, 0b00#2 ++
      (v.extractLsb' 0 4 ++ v.extractLsb' 4 4)⟩] }

/-- PP10, PLS and PP8 respond with the bits of the operand as R103, R104 and R105 write them out; no subkey is needed
and nothing changes (R114, R115, R116). -/
def Obligations.KeyPermutationCommands : Prop :=
  ∀ (v : BitVec 10) (s : State), s.fault = false →
    exec (.pp10 v) s = .next { s with responses := s.responses ++ [⟨false,
      BitVec.ofBool v[7] ++ BitVec.ofBool v[5] ++ BitVec.ofBool v[8] ++ BitVec.ofBool v[3] ++ BitVec.ofBool v[6] ++
      BitVec.ofBool v[0] ++ BitVec.ofBool v[9] ++ BitVec.ofBool v[1] ++ BitVec.ofBool v[2] ++ BitVec.ofBool v[4]⟩] } ∧
    exec (.pls v) s = .next { s with responses := s.responses ++ [⟨false,
      v.extractLsb' 5 4 ++ BitVec.ofBool v[9] ++ (v.extractLsb' 0 4 ++ BitVec.ofBool v[4])⟩] } ∧
    exec (.pp8 v) s = .next { s with responses := s.responses ++ [⟨false, 0b00#2 ++
      (BitVec.ofBool v[4] ++ BitVec.ofBool v[7] ++ BitVec.ofBool v[3] ++ BitVec.ofBool v[6] ++
       BitVec.ofBool v[2] ++ BitVec.ofBool v[5] ++ BitVec.ofBool v[0] ++ BitVec.ofBool v[1])⟩] }

/-- PEP and PP4 respond with the bits of the operand as R106 and R107 write them out; no subkey is needed and nothing
changes (R117, R118). -/
def Obligations.RoundPermutationCommands : Prop :=
  ∀ (v : Half) (s : State), s.fault = false →
    exec (.pep v) s = .next { s with responses := s.responses ++ [⟨false, 0b00#2 ++
      (BitVec.ofBool v[0] ++ BitVec.ofBool v[3] ++ BitVec.ofBool v[2] ++ BitVec.ofBool v[1] ++
       BitVec.ofBool v[2] ++ BitVec.ofBool v[1] ++ BitVec.ofBool v[0] ++ BitVec.ofBool v[3])⟩] } ∧
    exec (.pp4 v) s = .next { s with responses := s.responses ++ [⟨false, 0b000000#6 ++
      (BitVec.ofBool v[2] ++ BitVec.ofBool v[0] ++ BitVec.ofBool v[1] ++ BitVec.ofBool v[3])⟩] }

/-- SBOX responds with `s0(x[7:4]) ++ s1(x[3:0])`, s0 and s1 as the table of R135 lists them; no subkey is needed and
nothing changes (R134). The contents are the source's literals (log entry 7). -/
def Obligations.SboxRespondsByGroup : Prop :=
  ∀ (x : BitVec 8) (s : State) (s0 s1 : BitVec 2), s.fault = false →
    [1#2, 3#2, 0#2, 2#2, 3#2, 1#2, 2#2, 0#2, 0#2, 3#2, 2#2, 1#2, 1#2, 3#2, 3#2, 1#2][(x.extractLsb' 4 4).toNat]?
      = some s0 →
    [1#2, 2#2, 1#2, 0#2, 2#2, 1#2, 3#2, 3#2, 3#2, 2#2, 0#2, 1#2, 1#2, 0#2, 0#2, 3#2][(x.extractLsb' 0 4).toNat]?
      = some s1 →
    exec (.sbox x) s = .next { s with responses := s.responses ++ [⟨false, 0b000000#6 ++ (s0 ++ s1)⟩] }

/-- FRND responds with `P4(SBox(EP(R) ^ K))` of the selected subkey and changes nothing; only the selected register
need be valid (R140, R142). -/
def Obligations.FrndRespondsRoundFunction : Prop :=
  ∀ (r : Half) (s : State), s.fault = false →
    (s.v1 = true → exec (.frnd .k1 r) s = .next { s with
      responses := s.responses ++ [⟨false, 0b000000#6 ++ p4 (sbox (ep r ^^^ s.k1))⟩] }) ∧
    (s.v2 = true → exec (.frnd .k2 r) s = .next { s with
      responses := s.responses ++ [⟨false, 0b000000#6 ++ p4 (sbox (ep r ^^^ s.k2))⟩] })

/-- FSTEP responds with `(L ^ F(R, K)) ++ R` of the selected subkey and changes nothing; only the selected register need
be valid (R143, R145). -/
def Obligations.FstepRespondsFeistelStep : Prop :=
  ∀ (b : Block) (s : State), s.fault = false →
    (s.v1 = true → exec (.fstep .k1 b) s = .next { s with
      responses := s.responses ++
        [⟨false, 0b00#2 ++ ((b.extractLsb' 4 4 ^^^ roundF (b.extractLsb' 0 4) s.k1) ++ b.extractLsb' 0 4)⟩] }) ∧
    (s.v2 = true → exec (.fstep .k2 b) s = .next { s with
      responses := s.responses ++
        [⟨false, 0b00#2 ++ ((b.extractLsb' 4 4 ^^^ roundF (b.extractLsb' 0 4) s.k2) ++ b.extractLsb' 0 4)⟩] })

/-! Laws of the permutation unit and the S-boxes -/

/-- R110: IPI and IP are inverse to each other; SW is its own inverse; five LS are the identity and two are the table
`[3,4,0,1,2,8,9,5,6,7]`; IP, IPI, P10, LS, P4 and SW are bijections, P8 is not injective and EP not surjective, its
result repeating bits; every table takes zero to zero and all ones to all ones. -/
def Obligations.PermutationTableLaws : Prop :=
  (∀ v : Block, ipi (ip v) = v ∧ ip (ipi v) = v) ∧
  (∀ v : Block, sw (sw v) = v) ∧
  (∀ v : BitVec 10, ls (ls (ls (ls (ls v)))) = v ∧ ls (ls v) = permute v #v[3, 4, 0, 1, 2, 8, 9, 5, 6, 7]) ∧
  (Function.Bijective ip ∧ Function.Bijective ipi ∧ Function.Bijective p10 ∧ Function.Bijective ls ∧
    Function.Bijective p4 ∧ Function.Bijective sw) ∧
  ¬ Function.Injective p8 ∧ ¬ Function.Surjective ep ∧
  (∀ v : Half, (ep v)[1] = (ep v)[7] ∧ (ep v)[2] = (ep v)[4] ∧ (ep v)[3] = (ep v)[5] ∧ (ep v)[0] = (ep v)[6]) ∧
  (∀ (win m : Nat) (t : PermTable win m),
    permute (0#win) t = 0#m ∧ permute (BitVec.allOnes win) t = BitVec.allOnes m)

/-- R111: `permute` distributes over exclusive or, for every table. -/
def Obligations.PermuteDistributesOverXor : Prop :=
  ∀ (win m : Nat) (t : PermTable win m) (a b : BitVec win), permute (a ^^^ b) t = permute a t ^^^ permute b t

/-- R47: the flattened contents of the two S-boxes, at address `row ++ col`. -/
def Obligations.FlattenedSboxContents : Prop :=
  ∀ row col : BitVec 2,
    [1#2, 0#2, 3#2, 2#2, 3#2, 2#2, 1#2, 0#2, 0#2, 2#2, 1#2, 3#2, 3#2, 1#2, 3#2, 1#2][(row ++ col).toNat]?
      = some (tableRead s0Table row col) ∧
    [1#2, 1#2, 2#2, 3#2, 2#2, 0#2, 1#2, 3#2, 3#2, 0#2, 1#2, 0#2, 2#2, 1#2, 0#2, 3#2][(row ++ col).toNat]?
      = some (tableRead s1Table row col)

/-! Laws of the round, the key schedule and the block cipher -/

/-- R141: F depends on K only through `EP(R) ^ K`; F(0, 0x00) is 0xC; and the sixteen values of F under K = 0x5F, in
which 9, D, 6 and A each occur twice, so F need not be injective. -/
def Obligations.RoundFunctionCornerCases : Prop :=
  (∀ (r : Half) (k : Subkey), roundF r k = roundF 0x0#4 (k ^^^ ep r)) ∧
  roundF 0x0#4 0x00#8 = 0xC#4 ∧
  (List.range 16).map (fun r => (roundF (BitVec.ofNat 4 r) 0x5F#8).toNat) =
    [0xE, 0x9, 0xD, 0xA, 0x6, 0xC, 0x1, 0xB, 0x9, 0xD, 0x8, 0x6, 0x7, 0xA, 0x4, 0x5] ∧
  ¬ Function.Injective (fun r : Half => roundF r 0x5F#8)

/-- R144: the Feistel step is an involution in the block for every subkey, whatever the S-boxes contain (R136), and so a
bijection on blocks. -/
def Obligations.FeistelStepIsInvolution : Prop :=
  ∀ (c : SBoxConfig) (k : Subkey),
    (∀ b : Block, feistelWith c (feistelWith c b k) k = b) ∧ Function.Bijective (fun b : Block => feistelWith c b k)

/-- R152: the schedule as bit selection from the master key, with its consequences: bit 8 reaches neither subkey and two
keys give the same pair exactly when they agree off bit 8, so there are 512 pairs; bit 3 reaches only K1, bit 5 only K2
and every other used bit both; K1 = K2 for exactly eight keys. -/
def Obligations.KeyScheduleBitSelection : Prop :=
  (∀ k : MasterKey,
    keySchedule k =
      (permute k (#v[4, 0, 7, 2, 6, 1, 3, 9] : PermTable 10 8), permute k (#v[0, 9, 5, 4, 7, 2, 6, 1] : PermTable 10 8))) ∧
  (∀ k k' : MasterKey, keySchedule k = keySchedule k' ↔ k &&& 0x2FF#10 = k' &&& 0x2FF#10) ∧
  (Set.range keySchedule).ncard = 512 ∧
  (∀ k : MasterKey,
    (keySchedule (k ^^^ 0x008#10)).1 ≠ (keySchedule k).1 ∧ (keySchedule (k ^^^ 0x008#10)).2 = (keySchedule k).2 ∧
    (keySchedule (k ^^^ 0x020#10)).1 = (keySchedule k).1 ∧ (keySchedule (k ^^^ 0x020#10)).2 ≠ (keySchedule k).2 ∧
    ∀ j ∈ [0x001#10, 0x002#10, 0x004#10, 0x010#10, 0x040#10, 0x080#10, 0x200#10],
      (keySchedule (k ^^^ j)).1 ≠ (keySchedule k).1 ∧ (keySchedule (k ^^^ j)).2 ≠ (keySchedule k).2) ∧
  keySchedule 0x000#10 = (0x00#8, 0x00#8) ∧ keySchedule 0x3FF#10 = (0xFF#8, 0xFF#8) ∧
  (∀ k : MasterKey, (keySchedule k).1 = (keySchedule k).2 ↔
    k ∈ [0x000#10, 0x0E8#10, 0x100#10, 0x1E8#10, 0x217#10, 0x2FF#10, 0x317#10, 0x3FF#10])

/-- R158: after KEYLD k, SKRD K1 returns what the chain PP10, PLS, PP8 of responses gives, and SKRD K2 what PP10, PLS,
PLS, PP8 gives. Each permutation command is issued on the response before it, from any state with FAULT = 0. -/
def Obligations.ScheduleThroughPermutationUnit : Prop :=
  ∀ (k : MasterKey) (s : State), s.fault = false →
    ∃ (p q r a b : Data) (t : State),
      exec (.pp10 k) s = .next { s with responses := s.responses ++ [⟨false, p⟩] } ∧
      exec (.pls p) s = .next { s with responses := s.responses ++ [⟨false, q⟩] } ∧
      exec (.pp8 q) s = .next { s with responses := s.responses ++ [⟨false, a⟩] } ∧
      exec (.pls q) s = .next { s with responses := s.responses ++ [⟨false, r⟩] } ∧
      exec (.pp8 r) s = .next { s with responses := s.responses ++ [⟨false, b⟩] } ∧
      exec (.keyld k) s = .next t ∧
      exec (.skrd .k1) t = .next { t with responses := t.responses ++ [⟨false, a⟩] } ∧
      exec (.skrd .k2) t = .next { t with responses := t.responses ++ [⟨false, b⟩] }

/-- R156: SKLD K1 and SKLD K2 leave the same state in either order, and the state KEYLD k leaves when the two values are
the schedule of k. -/
def Obligations.SubkeyLoadOrderIrrelevant : Prop :=
  ∀ (a b : Subkey) (s : State), s.fault = false →
    ∃ s1 s2 t1 t2,
      exec (.skld .k1 a) s = .next s1 ∧ exec (.skld .k2 b) s1 = .next s2 ∧
      exec (.skld .k2 b) s = .next t1 ∧ exec (.skld .k1 a) t1 = .next t2 ∧ s2 = t2 ∧
      ∀ k : MasterKey, (a, b) = keySchedule k → ∃ u, exec (.keyld k) s = .next u ∧ u.SameRegisters s2

/-- R176: decryption undoes encryption and encryption undoes decryption, for every block, every pair of subkeys and
whatever the S-boxes contain (R136); at the command level, ENC then DEC of its response responds with the block. -/
def Obligations.EncryptDecryptRoundTrip : Prop :=
  (∀ (c : SBoxConfig) (b : Block) (ka kb : Subkey),
    blockDecryptWith c (blockEncryptWith c b ka kb) ka kb = b ∧
    blockEncryptWith c (blockDecryptWith c b ka kb) ka kb = b) ∧
  ∀ (b : Block) (s : State), s.fault = false → s.v1 = true → s.v2 = true →
    ∃ (c : Data) (t : State),
      exec (.enc b) s = .next t ∧ t.responses = s.responses ++ [⟨false, c⟩] ∧
      exec (.dec (c.extractLsb' 0 8)) t = .next { t with responses := t.responses ++ [⟨false, b.setWidth 10⟩] }

/-- R177: for a fixed subkey pair, derived from a master key or not, encryption permutes the 256 blocks; it does so
whatever the S-boxes contain (R136). -/
def Obligations.EncryptionIsBijective : Prop :=
  ∀ (c : SBoxConfig) (ka kb : Subkey), Function.Bijective (fun b : Block => blockEncryptWith c b ka kb)

/-- R178: block 0x02 encrypts to 0xD2 under master key 0x1FD and to 0x9B under 0x1FC; the converse fails, since `k` and
`k ^ 0x100` encrypt every block alike. The values rest on the source's S-box literals (log entry 7). -/
def Obligations.KeySensitivity : Prop :=
  blockEncrypt 0x02#8 (keySchedule 0x1FD#10).1 (keySchedule 0x1FD#10).2 = 0xD2#8 ∧
  blockEncrypt 0x02#8 (keySchedule 0x1FC#10).1 (keySchedule 0x1FC#10).2 = 0x9B#8 ∧
  ∀ (k : MasterKey) (b : Block),
    blockEncrypt b (keySchedule (k ^^^ 0x100#10)).1 (keySchedule (k ^^^ 0x100#10)).2 =
      blockEncrypt b (keySchedule k).1 (keySchedule k).2

/-- R179: decryption is encryption with the two subkeys exchanged; after SKLD K1, a and SKLD K2, b, DEC responds what
ENC responds after SKLD K1, b and SKLD K2, a; and when the two subkeys are equal encryption and decryption are the same
function and ENC is its own inverse. -/
def Obligations.DecryptIsSwappedEncrypt : Prop :=
  (∀ (c : SBoxConfig) (v : Block) (a b : Subkey), blockDecryptWith c v a b = blockEncryptWith c v b a) ∧
  (∀ (a b : Subkey) (v : Block) (s : State), s.fault = false →
    ∃ (s1 s2 t1 t2 s3 t3 : State) (d : Data),
      exec (.skld .k1 a) s = .next s1 ∧ exec (.skld .k2 b) s1 = .next s2 ∧
      exec (.skld .k1 b) s = .next t1 ∧ exec (.skld .k2 a) t1 = .next t2 ∧
      exec (.dec v) s2 = .next s3 ∧ s3.responses = s2.responses ++ [⟨false, d⟩] ∧
      exec (.enc v) t2 = .next t3 ∧ t3.responses = t2.responses ++ [⟨false, d⟩]) ∧
  ∀ (c : SBoxConfig) (v : Block) (k : Subkey),
    blockEncryptWith c v k k = blockDecryptWith c v k k ∧ blockEncryptWith c (blockEncryptWith c v k k) k k = v

/-- Block commands are independent: between key loads two ENC or DEC commands may be issued in either order, and each
responds as it would alone (R241, R192). -/
def Obligations.BlockCommandsIndependent : Prop :=
  ∀ (i j : Instr) (s : State), s.fault = false → s.v1 = true → s.v2 = true →
    i.mnemonic ∈ [.enc, .dec] → j.mnemonic ∈ [.enc, .dec] →
    ∃ (ri rj : Response) (si sij sj sji : State),
      exec i s = .next si ∧ exec j si = .next sij ∧ sij.responses = s.responses ++ [ri, rj] ∧
      exec j s = .next sj ∧ exec i sj = .next sji ∧ sji.responses = s.responses ++ [rj, ri] ∧
      sij.SameRegisters sji

/-! The message procedure (45_message_codec.md) -/

/-- R187, R188: the output has as many characters as the message, and an empty message gives an empty output. -/
def Obligations.MessageLengthPreserved : Prop :=
  ∀ (msg : List Nat) (key : Nat),
    (msgEncrypt msg key).length = msg.length ∧ (msgDecrypt msg key).length = msg.length ∧
    msgEncrypt [] key = [] ∧ msgDecrypt [] key = []

/-- R193: for a message of code points at most 255 decryption gives the message back; in general each code point comes
back modulo 256; and the encrypted message consists of code points 0 to 255. -/
def Obligations.MessageRoundTrip : Prop :=
  ∀ (msg : List Nat) (key : Nat),
    ((∀ p ∈ msg, p ≤ 255) → msgDecrypt (msgEncrypt msg key) key = msg) ∧
    msgDecrypt (msgEncrypt msg key) key = msg.map (· % 256) ∧
    ∀ p ∈ msgEncrypt msg key, p ≤ 255

/-- R190, R191: the engine, not faulted and presented the command list of MSGENC (of MSGDEC), runs it whole: one
response a command, none an error, the output message read from the responses is MsgEncrypt (MsgDecrypt) of the message,
and no key material remains. -/
def Obligations.MessageExpansionsComputeMessages : Prop :=
  ∀ (s : State) (key : Nat) (msg : List Nat), s.fault = false →
    (s.pending = (msgencCommands key msg).map .command →
      ∃ (t : State) (rs : List Response), Host.Core.run core (msg.length + 2) s = .next t ∧
        t.responses = s.responses ++ rs ∧ rs.length = msg.length + 2 ∧ (∀ r ∈ rs, r.err = false) ∧
        msgOutput rs = msgEncrypt msg key ∧
        t.pending = [] ∧ t.k1 = 0x00#8 ∧ t.k2 = 0x00#8 ∧ t.v1 = false ∧ t.v2 = false ∧ t.fault = false) ∧
    (s.pending = (msgdecCommands key msg).map .command →
      ∃ (t : State) (rs : List Response), Host.Core.run core (msg.length + 2) s = .next t ∧
        t.responses = s.responses ++ rs ∧ rs.length = msg.length + 2 ∧ (∀ r ∈ rs, r.err = false) ∧
        msgOutput rs = msgDecrypt msg key ∧
        t.pending = [] ∧ t.k1 = 0x00#8 ∧ t.k2 = 0x00#8 ∧ t.v1 = false ∧ t.v2 = false ∧ t.fault = false)
end

