-- ==== Sys2Proof/Laws/Decode.lean ====
section
/-! SUPPORT. The fields of a word put together from fields, and the opcode map read both ways. -/

namespace Sys2Proof.Machine

/-- The bits of a word put together from fields: DATA in 9:0, KS in 10, OP in 15:11 (R61). -/
theorem wordOf_getLsbD (op : BitVec 5) (ks : Bool) (d : Data) (n : Nat) :
    (wordOf op ks d).getLsbD n =
      if n < 10 then d.getLsbD n else if n = 10 then ks else op.getLsbD (n - 11) := by
  have h : (wordOf op ks d).getLsbD n = (op ++ BitVec.ofBool ks ++ d).getLsbD n := rfl
  rw [h, BitVec.getLsbD_append, BitVec.getLsbD_append]
  rcases Nat.lt_trichotomy n 10 with hn | hn | hn
  · simp [hn]
  · simp [hn]
  · simp [show ¬ n < 10 by omega, show ¬ n = 10 by omega, show ¬ n - 10 < 1 by omega, show n - 10 - 1 = n - 11 by omega]

@[simp] theorem opField_wordOf (op : BitVec 5) (ks : Bool) (d : Data) : opField (wordOf op ks d) = op := by
  ext i hi
  simp [opField, wordOf_getLsbD, BitVec.getLsbD_eq_getElem hi, show ¬ 11 + i < 10 by omega, show ¬ 11 + i = 10 by omega]

@[simp] theorem ksField_wordOf (op : BitVec 5) (ks : Bool) (d : Data) : ksField (wordOf op ks d) = ks :=
  (wordOf_getLsbD op ks d 10).trans (by simp)

@[simp] theorem dataField_wordOf (op : BitVec 5) (ks : Bool) (d : Data) : dataField (wordOf op ks d) = d := by
  ext i hi
  simp [dataField, wordOf_getLsbD, hi]

@[simp] theorem selOfKs_ksOfSel (sel : SubkeySel) : selOfKs (ksOfSel sel) = sel := by cases sel <;> rfl

@[simp] theorem operand8_zext10 (v : BitVec 8) : operand8 (zext10 v) = v := by
  ext i hi
  simp [operand8, zext10, show i < 10 by omega, BitVec.getLsbD_eq_getElem hi]

@[simp] theorem operand4_zext10 (v : BitVec 4) : operand4 (zext10 v) = v := by
  ext i hi
  simp [operand4, zext10, show i < 10 by omega, BitVec.getLsbD_eq_getElem hi]

end Sys2Proof.Machine

namespace Sys2Proof

/-- The opcode map gives each command its own opcode (R65). -/
@[simp] theorem ofOpcode_opcode (m : Mnemonic) : Mnemonic.ofOpcode m.opcode = some m := by cases m <;> decide

/-- What an opcode selects carries that opcode (R65). -/
theorem opcode_of_ofOpcode {op : BitVec 5} {m : Mnemonic} (h : Mnemonic.ofOpcode op = some m) : m.opcode = op := by
  have := List.find?_some h
  simpa using this

/-- The one word shape that decodes to a command (R65, R67, R69). -/
theorem decode_eq_ok {w : CmdWord} {i : Instr} :
    decode w = .ok i ↔
      ∃ m, Mnemonic.ofOpcode (Machine.opField w) = some m ∧
        (Machine.usesKs (Machine.formatOf m) = true ∨ Machine.ksField w = false) ∧
        m.build (Machine.selOfKs (Machine.ksField w)) (Machine.dataField w) = i := by
  cases hm : Mnemonic.ofOpcode (Machine.opField w) with
  | none => simp [decode, hm]
  | some m =>
    cases hu : Machine.usesKs (Machine.formatOf m) <;> cases hk : Machine.ksField w <;> simp [decode, hm, hu, hk]

end Sys2Proof
end

