-- ==== Sys2Proof/Laws/State.lean ====
section
/-! SUPPORT. One lemma per field per update of the state, true by definition, so that no later proof unfolds a record
update; and what the selected accessors read. -/

namespace Sys2Proof.Machine

/-! Accessors by select (R12). -/

@[simp] theorem subkey_k1 (s : State) : s.subkey .k1 = s.k1 := rfl
@[simp] theorem subkey_k2 (s : State) : s.subkey .k2 = s.k2 := rfl
@[simp] theorem valid_k1 (s : State) : s.valid .k1 = s.v1 := rfl
@[simp] theorem valid_k2 (s : State) : s.valid .k2 = s.v2 := rfl

/-! `loadSubkey` (R155). -/

@[simp] theorem loadSubkey_subkey (s : State) (sel : SubkeySel) (v : Subkey) :
    (s.loadSubkey sel v).subkey sel = v := by cases sel <;> rfl
@[simp] theorem loadSubkey_valid (s : State) (sel : SubkeySel) (v : Subkey) :
    (s.loadSubkey sel v).valid sel = true := by cases sel <;> rfl
@[simp] theorem loadSubkey_k1_k1 (s : State) (v : Subkey) : (s.loadSubkey .k1 v).k1 = v := rfl
@[simp] theorem loadSubkey_k1_k2 (s : State) (v : Subkey) : (s.loadSubkey .k1 v).k2 = s.k2 := rfl
@[simp] theorem loadSubkey_k1_v1 (s : State) (v : Subkey) : (s.loadSubkey .k1 v).v1 = true := rfl
@[simp] theorem loadSubkey_k1_v2 (s : State) (v : Subkey) : (s.loadSubkey .k1 v).v2 = s.v2 := rfl
@[simp] theorem loadSubkey_k1_fault (s : State) (v : Subkey) : (s.loadSubkey .k1 v).fault = s.fault := rfl
@[simp] theorem loadSubkey_k1_cause (s : State) (v : Subkey) : (s.loadSubkey .k1 v).cause = s.cause := rfl
@[simp] theorem loadSubkey_k1_pending (s : State) (v : Subkey) : (s.loadSubkey .k1 v).pending = s.pending := rfl
@[simp] theorem loadSubkey_k1_responses (s : State) (v : Subkey) : (s.loadSubkey .k1 v).responses = s.responses := rfl
@[simp] theorem loadSubkey_k2_k1 (s : State) (v : Subkey) : (s.loadSubkey .k2 v).k1 = s.k1 := rfl
@[simp] theorem loadSubkey_k2_k2 (s : State) (v : Subkey) : (s.loadSubkey .k2 v).k2 = v := rfl
@[simp] theorem loadSubkey_k2_v1 (s : State) (v : Subkey) : (s.loadSubkey .k2 v).v1 = s.v1 := rfl
@[simp] theorem loadSubkey_k2_v2 (s : State) (v : Subkey) : (s.loadSubkey .k2 v).v2 = true := rfl
@[simp] theorem loadSubkey_k2_fault (s : State) (v : Subkey) : (s.loadSubkey .k2 v).fault = s.fault := rfl
@[simp] theorem loadSubkey_k2_cause (s : State) (v : Subkey) : (s.loadSubkey .k2 v).cause = s.cause := rfl
@[simp] theorem loadSubkey_k2_pending (s : State) (v : Subkey) : (s.loadSubkey .k2 v).pending = s.pending := rfl
@[simp] theorem loadSubkey_k2_responses (s : State) (v : Subkey) : (s.loadSubkey .k2 v).responses = s.responses := rfl

/-! `loadPair` (R153). -/

@[simp] theorem loadPair_k1 (s : State) (a b : Subkey) : (s.loadPair a b).k1 = a := rfl
@[simp] theorem loadPair_k2 (s : State) (a b : Subkey) : (s.loadPair a b).k2 = b := rfl
@[simp] theorem loadPair_v1 (s : State) (a b : Subkey) : (s.loadPair a b).v1 = true := rfl
@[simp] theorem loadPair_v2 (s : State) (a b : Subkey) : (s.loadPair a b).v2 = true := rfl
@[simp] theorem loadPair_fault (s : State) (a b : Subkey) : (s.loadPair a b).fault = s.fault := rfl
@[simp] theorem loadPair_cause (s : State) (a b : Subkey) : (s.loadPair a b).cause = s.cause := rfl
@[simp] theorem loadPair_pending (s : State) (a b : Subkey) : (s.loadPair a b).pending = s.pending := rfl
@[simp] theorem loadPair_responses (s : State) (a b : Subkey) : (s.loadPair a b).responses = s.responses := rfl

/-! `clearPair` (R159). -/

@[simp] theorem clearPair_k1 (s : State) : (s.clearPair).k1 = 0x00#8 := rfl
@[simp] theorem clearPair_k2 (s : State) : (s.clearPair).k2 = 0x00#8 := rfl
@[simp] theorem clearPair_v1 (s : State) : (s.clearPair).v1 = false := rfl
@[simp] theorem clearPair_v2 (s : State) : (s.clearPair).v2 = false := rfl
@[simp] theorem clearPair_fault (s : State) : (s.clearPair).fault = s.fault := rfl
@[simp] theorem clearPair_cause (s : State) : (s.clearPair).cause = s.cause := rfl
@[simp] theorem clearPair_pending (s : State) : (s.clearPair).pending = s.pending := rfl
@[simp] theorem clearPair_responses (s : State) : (s.clearPair).responses = s.responses := rfl

/-! `respond` and `complete` (R43). -/

@[simp] theorem respond_k1 (s : State) (e : Bool) (d : Data) : (respond e d s).k1 = s.k1 := rfl
@[simp] theorem respond_k2 (s : State) (e : Bool) (d : Data) : (respond e d s).k2 = s.k2 := rfl
@[simp] theorem respond_v1 (s : State) (e : Bool) (d : Data) : (respond e d s).v1 = s.v1 := rfl
@[simp] theorem respond_v2 (s : State) (e : Bool) (d : Data) : (respond e d s).v2 = s.v2 := rfl
@[simp] theorem respond_fault (s : State) (e : Bool) (d : Data) : (respond e d s).fault = s.fault := rfl
@[simp] theorem respond_cause (s : State) (e : Bool) (d : Data) : (respond e d s).cause = s.cause := rfl
@[simp] theorem respond_pending (s : State) (e : Bool) (d : Data) : (respond e d s).pending = s.pending := rfl
@[simp] theorem respond_responses (s : State) (e : Bool) (d : Data) : (respond e d s).responses = s.responses ++ [⟨e, d⟩] := rfl
@[simp] theorem complete_k1 (s : State) (d : Data) : (complete d s).k1 = s.k1 := rfl
@[simp] theorem complete_k2 (s : State) (d : Data) : (complete d s).k2 = s.k2 := rfl
@[simp] theorem complete_v1 (s : State) (d : Data) : (complete d s).v1 = s.v1 := rfl
@[simp] theorem complete_v2 (s : State) (d : Data) : (complete d s).v2 = s.v2 := rfl
@[simp] theorem complete_fault (s : State) (d : Data) : (complete d s).fault = s.fault := rfl
@[simp] theorem complete_cause (s : State) (d : Data) : (complete d s).cause = s.cause := rfl
@[simp] theorem complete_pending (s : State) (d : Data) : (complete d s).pending = s.pending := rfl
@[simp] theorem complete_responses (s : State) (d : Data) : (complete d s).responses = s.responses ++ [⟨false, d⟩] := rfl

/-! `raiseFault` (R204). -/

@[simp] theorem raiseFault_k1 (s : State) (c : FaultCause) : (raiseFault c s).k1 = 0x00#8 := rfl
@[simp] theorem raiseFault_k2 (s : State) (c : FaultCause) : (raiseFault c s).k2 = 0x00#8 := rfl
@[simp] theorem raiseFault_v1 (s : State) (c : FaultCause) : (raiseFault c s).v1 = false := rfl
@[simp] theorem raiseFault_v2 (s : State) (c : FaultCause) : (raiseFault c s).v2 = false := rfl
@[simp] theorem raiseFault_fault (s : State) (c : FaultCause) : (raiseFault c s).fault = true := rfl
@[simp] theorem raiseFault_cause (s : State) (c : FaultCause) : (raiseFault c s).cause = c.code := rfl
@[simp] theorem raiseFault_pending (s : State) (c : FaultCause) : (raiseFault c s).pending = s.pending := rfl
@[simp] theorem raiseFault_responses (s : State) (c : FaultCause) : (raiseFault c s).responses = s.responses ++ [⟨true, zext10 c.code⟩] := rfl

/-! `refuseFaulted` (R206). -/

@[simp] theorem refuseFaulted_k1 (s : State) : (refuseFaulted s).k1 = s.k1 := rfl
@[simp] theorem refuseFaulted_k2 (s : State) : (refuseFaulted s).k2 = s.k2 := rfl
@[simp] theorem refuseFaulted_v1 (s : State) : (refuseFaulted s).v1 = s.v1 := rfl
@[simp] theorem refuseFaulted_v2 (s : State) : (refuseFaulted s).v2 = s.v2 := rfl
@[simp] theorem refuseFaulted_fault (s : State) : (refuseFaulted s).fault = s.fault := rfl
@[simp] theorem refuseFaulted_cause (s : State) : (refuseFaulted s).cause = s.cause := rfl
@[simp] theorem refuseFaulted_pending (s : State) : (refuseFaulted s).pending = s.pending := rfl
@[simp] theorem refuseFaulted_responses (s : State) : (refuseFaulted s).responses = s.responses ++ [⟨true, zext10 s.cause⟩] := rfl

/-! `applyReset` (R230). -/

@[simp] theorem applyReset_k1 (s : State) : (applyReset s).k1 = 0x00#8 := rfl
@[simp] theorem applyReset_k2 (s : State) : (applyReset s).k2 = 0x00#8 := rfl
@[simp] theorem applyReset_v1 (s : State) : (applyReset s).v1 = false := rfl
@[simp] theorem applyReset_v2 (s : State) : (applyReset s).v2 = false := rfl
@[simp] theorem applyReset_fault (s : State) : (applyReset s).fault = false := rfl
@[simp] theorem applyReset_cause (s : State) : (applyReset s).cause = 0#3 := rfl
@[simp] theorem applyReset_pending (s : State) : (applyReset s).pending = s.pending := rfl
@[simp] theorem applyReset_responses (s : State) : (applyReset s).responses = s.responses := rfl

/-! `presentWord` (R41). -/

@[simp] theorem presentWord_k1 (s : State) (w : CmdWord) : (presentWord w s).k1 = s.k1 := rfl
@[simp] theorem presentWord_k2 (s : State) (w : CmdWord) : (presentWord w s).k2 = s.k2 := rfl
@[simp] theorem presentWord_v1 (s : State) (w : CmdWord) : (presentWord w s).v1 = s.v1 := rfl
@[simp] theorem presentWord_v2 (s : State) (w : CmdWord) : (presentWord w s).v2 = s.v2 := rfl
@[simp] theorem presentWord_fault (s : State) (w : CmdWord) : (presentWord w s).fault = s.fault := rfl
@[simp] theorem presentWord_cause (s : State) (w : CmdWord) : (presentWord w s).cause = s.cause := rfl
@[simp] theorem presentWord_pending (s : State) (w : CmdWord) : (presentWord w s).pending = .command w :: s.pending := rfl
@[simp] theorem presentWord_responses (s : State) (w : CmdWord) : (presentWord w s).responses = s.responses := rfl

/-! The views (R27, R40). -/

@[simp] theorem faultPin_eq (s : State) : s.faultPin = s.fault := rfl
@[simp] theorem pairValid_iff (s : State) : s.pairValid = true ↔ s.v1 = true ∧ s.v2 = true := by
  simp [State.pairValid]

end Sys2Proof.Machine
end

