-- ==== Sys2Proof/Laws/Ops.lean ====
section
/-! SUPPORT. One lemma for each shared operation that says everything it can do; proofs cite these and do not unfold
the operations. -/

namespace Sys2Proof.Machine

/-- A command answers a next state: refused in the faulted state, else its body (R70, R206). -/
theorem acceptCommand_next {body : State → State} {s t : State} :
    acceptCommand body s = .next t ↔
      (s.fault = true ∧ t = refuseFaulted s) ∨ (s.fault = false ∧ t = body s) := by
  cases h : s.fault <;> simp [acceptCommand, h, eq_comm]

/-- With FAULT = 0 a command is its body. -/
theorem acceptCommand_of_running {body : State → State} {s : State} (h : s.fault = false) :
    acceptCommand body s = .next (body s) := by simp [acceptCommand, h]

/-- With FAULT = 1 a command is refused, whichever it is (R206). -/
theorem acceptCommand_of_faulted {body : State → State} {s : State} (h : s.fault = true) :
    acceptCommand body s = .next (refuseFaulted s) := by simp [acceptCommand, h]

/-- A command over one subkey completes with a result or takes the SUBKEY_INVALID fault (R201). -/
theorem withSubkey_cases (sel : SubkeySel) (f : Subkey → Data) (s : State) :
    (s.valid sel = true ∧ withSubkey sel f s = complete (f (s.subkey sel)) s) ∨
      (s.valid sel = false ∧ withSubkey sel f s = raiseFault .subkeyInvalid s) := by
  cases h : s.valid sel <;> simp [withSubkey, h]

/-- A command over the subkey pair completes with a result or takes the SUBKEY_INVALID fault (R201). -/
theorem withSubkeyPair_cases (f : Subkey → Subkey → Data) (s : State) :
    (s.pairValid = true ∧ withSubkeyPair f s = complete (f s.k1 s.k2) s) ∨
      (s.pairValid = false ∧ withSubkeyPair f s = raiseFault .subkeyInvalid s) := by
  cases h : s.pairValid <;> simp [withSubkeyPair, h]

/-- The selected subkey is valid: the command completes with a result from it. -/
theorem withSubkey_of_valid {sel : SubkeySel} {f : Subkey → Data} {s : State} (h : s.valid sel = true) :
    withSubkey sel f s = complete (f (s.subkey sel)) s := by simp [withSubkey, h]

/-- Both subkeys are valid: the command completes with a result from them. -/
theorem withSubkeyPair_of_valid {f : Subkey → Subkey → Data} {s : State} (h1 : s.v1 = true) (h2 : s.v2 = true) :
    withSubkeyPair f s = complete (f s.k1 s.k2) s := by simp [withSubkeyPair, State.pairValid, h1, h2]

theorem takeEvent_nil {s : State} (h : s.pending = []) : takeEvent s = none := by simp [takeEvent, h]

theorem takeEvent_cons {s : State} {e : HostEvent} {rest : List HostEvent} (h : s.pending = e :: rest) :
    takeEvent s = some (e, { s with pending := rest }) := by simp [takeEvent, h]

/-- The step of a word the decoder rejects (R66, R67, R70). -/
theorem step_of_rejected {s : State} {w : CmdWord} {rest : List HostEvent} {e : DecodeError}
    (hp : s.pending = .command w :: rest) (hd : decode w = .error e) :
    step s = rejectWord e { s with pending := rest } := by simp [step, takeEvent_cons hp, hd]

end Sys2Proof.Machine
end

