-- ==== Sys2Proof/Laws/PerInstr.lean ====
section
/-! SUPPORT. Statements about every instruction as syntax, one lemma per constructor.
`PrintsWellFormed`: the line an instruction prints as is one the assembler accepts (R73).
`WordFields`: the fields of an instruction's word are its command's opcode, its KS and its operand (R61, R65). -/

namespace Sys2Proof.Laws

/-- The line an instruction prints as is well formed (R73). -/
def PrintsWellFormed.Statement (i : Instr) : Prop := i.wellFormed = true

/-- The fields of an instruction's word (R61, R65). -/
def WordFields.Statement (i : Instr) : Prop :=
  Machine.opField (encode i) = i.mnemonic.opcode ∧ Machine.ksField (encode i) = i.ks ∧
    Machine.dataField (encode i) = i.dataBits

/-- The checks of a printed line, from the shape its format gives it. -/
theorem wellFormed_of_fits {i : Instr}
    (hk : (Machine.lineOf i).kselFits = true) (hs : (Machine.lineOf i).dataStands = true)
    (hd : (Machine.lineOf i).dataFits = true) : i.wellFormed = true := by
  simp [Instr.wellFormed, AsmLine.wellFormed, hk, hs, hd]

/-- The fields of any instruction's word. -/
theorem encode_fields (i : Instr) : WordFields.Statement i :=
  ⟨Machine.opField_wordOf .., Machine.ksField_wordOf .., Machine.dataField_wordOf ..⟩

theorem PrintsWellFormed.keyld (k : MasterKey) : Statement (.keyld k) := wellFormed_of_fits rfl rfl (decide_eq_true (BitVec.isLt _))
theorem PrintsWellFormed.skld (sel : SubkeySel) (v : Subkey) : Statement (.skld sel v) := wellFormed_of_fits rfl rfl (decide_eq_true (BitVec.isLt _))
theorem PrintsWellFormed.keyclr : Statement .keyclr := wellFormed_of_fits rfl rfl rfl
theorem PrintsWellFormed.skrd (sel : SubkeySel) : Statement (.skrd sel) := wellFormed_of_fits rfl rfl rfl
theorem PrintsWellFormed.enc (b : Block) : Statement (.enc b) := wellFormed_of_fits rfl rfl (decide_eq_true (BitVec.isLt _))
theorem PrintsWellFormed.dec (b : Block) : Statement (.dec b) := wellFormed_of_fits rfl rfl (decide_eq_true (BitVec.isLt _))
theorem PrintsWellFormed.pip (b : Block) : Statement (.pip b) := wellFormed_of_fits rfl rfl (decide_eq_true (BitVec.isLt _))
theorem PrintsWellFormed.pipi (b : Block) : Statement (.pipi b) := wellFormed_of_fits rfl rfl (decide_eq_true (BitVec.isLt _))
theorem PrintsWellFormed.pp10 (v : BitVec 10) : Statement (.pp10 v) := wellFormed_of_fits rfl rfl (decide_eq_true (BitVec.isLt _))
theorem PrintsWellFormed.pls (v : BitVec 10) : Statement (.pls v) := wellFormed_of_fits rfl rfl (decide_eq_true (BitVec.isLt _))
theorem PrintsWellFormed.pp8 (v : BitVec 10) : Statement (.pp8 v) := wellFormed_of_fits rfl rfl (decide_eq_true (BitVec.isLt _))
theorem PrintsWellFormed.pep (h : Half) : Statement (.pep h) := wellFormed_of_fits rfl rfl (decide_eq_true (BitVec.isLt _))
theorem PrintsWellFormed.pp4 (h : Half) : Statement (.pp4 h) := wellFormed_of_fits rfl rfl (decide_eq_true (BitVec.isLt _))
theorem PrintsWellFormed.psw (b : Block) : Statement (.psw b) := wellFormed_of_fits rfl rfl (decide_eq_true (BitVec.isLt _))
theorem PrintsWellFormed.sbox (v : BitVec 8) : Statement (.sbox v) := wellFormed_of_fits rfl rfl (decide_eq_true (BitVec.isLt _))
theorem PrintsWellFormed.frnd (sel : SubkeySel) (h : Half) : Statement (.frnd sel h) := wellFormed_of_fits rfl rfl (decide_eq_true (BitVec.isLt _))
theorem PrintsWellFormed.fstep (sel : SubkeySel) (b : Block) : Statement (.fstep sel b) := wellFormed_of_fits rfl rfl (decide_eq_true (BitVec.isLt _))

theorem WordFields.keyld (k : MasterKey) : Statement (.keyld k) := encode_fields _
theorem WordFields.skld (sel : SubkeySel) (v : Subkey) : Statement (.skld sel v) := encode_fields _
theorem WordFields.keyclr : Statement .keyclr := encode_fields _
theorem WordFields.skrd (sel : SubkeySel) : Statement (.skrd sel) := encode_fields _
theorem WordFields.enc (b : Block) : Statement (.enc b) := encode_fields _
theorem WordFields.dec (b : Block) : Statement (.dec b) := encode_fields _
theorem WordFields.pip (b : Block) : Statement (.pip b) := encode_fields _
theorem WordFields.pipi (b : Block) : Statement (.pipi b) := encode_fields _
theorem WordFields.pp10 (v : BitVec 10) : Statement (.pp10 v) := encode_fields _
theorem WordFields.pls (v : BitVec 10) : Statement (.pls v) := encode_fields _
theorem WordFields.pp8 (v : BitVec 10) : Statement (.pp8 v) := encode_fields _
theorem WordFields.pep (h : Half) : Statement (.pep h) := encode_fields _
theorem WordFields.pp4 (h : Half) : Statement (.pp4 h) := encode_fields _
theorem WordFields.psw (b : Block) : Statement (.psw b) := encode_fields _
theorem WordFields.sbox (v : BitVec 8) : Statement (.sbox v) := encode_fields _
theorem WordFields.frnd (sel : SubkeySel) (h : Half) : Statement (.frnd sel h) := encode_fields _
theorem WordFields.fstep (sel : SubkeySel) (b : Block) : Statement (.fstep sel b) := encode_fields _

end Sys2Proof.Laws
end

