-- ==== Sys2Proof/Laws/Permutation.lean ====
section
/-! SUPPORT. What `permute` does to each bit (R100), the one lemma proofs about the tables cite. -/

namespace Sys2Proof.Machine

/-- Output bit i is source bit `T[i]` (R100). -/
@[simp] theorem permute_getElem {win m : Nat} (v : BitVec win) (t : PermTable win m) (i : Nat) (hi : i < m) :
    (permute v t)[i] = v[t[i].val] := by
  simp [permute]

/-- Permuting by one table and then by another is permuting by their composition `w`; for constant tables the
hypothesis is closed by `decide` (R100, R152). -/
theorem permute_permute {win m k : Nat} {t : PermTable win m} {u : PermTable m k} (w : PermTable win k)
    (h : ∀ i : Fin k, w[i] = t[u[i]]) (v : BitVec win) : permute (permute v t) u = permute v w := by
  ext i hi
  have hw : w[i] = t[u[i].val] := h ⟨i, hi⟩
  simp [hw]

/-- The table that lists every index in order permutes nothing. -/
theorem permute_identity {n : Nat} {t : PermTable n n} (h : ∀ i : Fin n, t[i] = i) (v : BitVec n) :
    permute v t = v := by
  ext i hi
  have ht : t[i] = ⟨i, hi⟩ := h ⟨i, hi⟩
  simp [ht]

end Sys2Proof.Machine
end

