-- ==== Sys2Proof/Laws/Round.lean ====
section
/-! SUPPORT. The halves of a block put together and taken apart (R143). -/

namespace Sys2Proof.Machine

@[simp] theorem leftHalf_append (l r : Half) : leftHalf (l ++ r) = l := by
  ext i hi
  have h : (leftHalf (l ++ r)).getLsbD i = (l ++ r).getLsbD (4 + i) := by simp [leftHalf, hi]
  rw [← BitVec.getLsbD_eq_getElem hi, h, BitVec.getLsbD_append]
  simp [hi]

@[simp] theorem rightHalf_append (l r : Half) : rightHalf (l ++ r) = r := by
  ext i hi
  have h : (rightHalf (l ++ r)).getLsbD i = (l ++ r).getLsbD i := by simp [rightHalf, hi]
  rw [← BitVec.getLsbD_eq_getElem hi, h, BitVec.getLsbD_append]
  simp [hi]

/-- A block is its two halves. -/
theorem halves_append (b : Block) : leftHalf b ++ rightHalf b = b := by
  ext i hi
  have h : (leftHalf b ++ rightHalf b).getLsbD i =
      if i < 4 then (rightHalf b).getLsbD i else (leftHalf b).getLsbD (i - 4) := BitVec.getLsbD_append ..
  rw [← BitVec.getLsbD_eq_getElem hi, h]
  by_cases h4 : i < 4
  · simpa [rightHalf, h4] using BitVec.getLsbD_eq_getElem (x := b) hi
  · simpa [leftHalf, h4, show i - 4 < 4 by omega, show 4 + (i - 4) = i by omega] using
      BitVec.getLsbD_eq_getElem (x := b) hi

/-- The left half of a Feistel step: `L ^ F(R, K)` (R143). -/
@[simp] theorem leftHalf_feistelWith (c : SBoxConfig) (b : Block) (k : Subkey) :
    leftHalf (feistelWith c b k) = leftHalf b ^^^ roundWith c (rightHalf b) k := leftHalf_append ..

/-- The right half passes a Feistel step unchanged (R143). -/
@[simp] theorem rightHalf_feistelWith (c : SBoxConfig) (b : Block) (k : Subkey) :
    rightHalf (feistelWith c b k) = rightHalf b := rightHalf_append ..

end Sys2Proof.Machine
end

