-- ==== Sys2Proof/Laws/Step.lean ====
section
/-! SUPPORT. Everything a command can do to the state, said once (R33): proofs about every command or every step cite
these and do not unfold the seventeen meanings. -/

namespace Sys2Proof.Machine

/-- What a command that is not refused does: it takes the SUBKEY_INVALID fault, or completes with some data over the
state unchanged, both subkeys loaded, one subkey loaded, or both cleared (R33). -/
def CommandEffect (s t : State) : Prop :=
  t = raiseFault .subkeyInvalid s ∨
    ∃ d, t = complete d s ∨ (∃ a b, t = complete d (s.loadPair a b)) ∨
      (∃ sel v, t = complete d (s.loadSubkey sel v)) ∨ t = complete d s.clearPair

theorem withSubkey_effect (sel : SubkeySel) (f : Subkey → Data) (s : State) :
    CommandEffect s (withSubkey sel f s) := by
  rcases withSubkey_cases sel f s with ⟨-, e⟩ | ⟨-, e⟩
  · exact .inr ⟨_, .inl e⟩
  · exact .inl e

theorem withSubkeyPair_effect (f : Subkey → Subkey → Data) (s : State) :
    CommandEffect s (withSubkeyPair f s) := by
  rcases withSubkeyPair_cases f s with ⟨-, e⟩ | ⟨-, e⟩
  · exact .inr ⟨_, .inl e⟩
  · exact .inl e

/-- Every command tests FAULT and then has one of those effects. -/
theorem exec_body (i : Instr) : ∃ body, exec i = acceptCommand body ∧ ∀ s, CommandEffect s (body s) := by
  cases i
  case keyld key => exact ⟨_, rfl, fun s => .inr ⟨_, .inr (.inl ⟨_, _, rfl⟩)⟩⟩
  case skld sel v => exact ⟨_, rfl, fun s => .inr ⟨_, .inr (.inr (.inl ⟨_, _, rfl⟩))⟩⟩
  case keyclr => exact ⟨_, rfl, fun s => .inr ⟨_, .inr (.inr (.inr rfl))⟩⟩
  case skrd sel => exact ⟨_, rfl, withSubkey_effect _ _⟩
  case frnd sel r => exact ⟨_, rfl, withSubkey_effect _ _⟩
  case fstep sel b => exact ⟨_, rfl, withSubkey_effect _ _⟩
  case enc b => exact ⟨_, rfl, withSubkeyPair_effect _⟩
  case dec b => exact ⟨_, rfl, withSubkeyPair_effect _⟩
  all_goals exact ⟨_, rfl, fun s => .inr ⟨_, .inl rfl⟩⟩

/-- Everything a command can do (R33, R70, R206). -/
theorem exec_cases {i : Instr} {s t : State} (h : exec i s = .next t) :
    (s.fault = true ∧ t = refuseFaulted s) ∨ (s.fault = false ∧ CommandEffect s t) := by
  obtain ⟨body, e, he⟩ := exec_body i
  rw [e, acceptCommand_next] at h
  rcases h with h | ⟨hf, rfl⟩
  · exact .inl h
  · exact .inr ⟨hf, he s⟩

/-! With FAULT = 0 each command is its body, over the shared operations. -/

section Running

variable {s : State} (h : s.fault = false)
include h

theorem exec_keyld (k : MasterKey) :
    exec (.keyld k) s = .next (complete 0#10 (s.loadPair (keySchedule k).1 (keySchedule k).2)) :=
  acceptCommand_of_running (body := fun t => complete 0#10 (t.loadPair (keySchedule k).1 (keySchedule k).2)) h
theorem exec_skld (sel : SubkeySel) (v : Subkey) :
    exec (.skld sel v) s = .next (complete 0#10 (s.loadSubkey sel v)) :=
  acceptCommand_of_running (body := fun t => complete 0#10 (t.loadSubkey sel v)) h
theorem exec_keyclr :
    exec .keyclr s = .next (complete 0#10 s.clearPair) :=
  acceptCommand_of_running (body := fun t => complete 0#10 (t.clearPair)) h
theorem exec_skrd (sel : SubkeySel) :
    exec (.skrd sel) s = .next (withSubkey sel (fun k => zext10 k) s) := acceptCommand_of_running h
theorem exec_enc (b : Block) :
    exec (.enc b) s = .next (withSubkeyPair (fun x y => zext10 (blockEncrypt b x y)) s) := acceptCommand_of_running h
theorem exec_dec (b : Block) :
    exec (.dec b) s = .next (withSubkeyPair (fun x y => zext10 (blockDecrypt b x y)) s) := acceptCommand_of_running h
theorem exec_pip (b : Block) :
    exec (.pip b) s = .next (complete (zext10 (ip b)) s) := acceptCommand_of_running h
theorem exec_pipi (b : Block) :
    exec (.pipi b) s = .next (complete (zext10 (ipi b)) s) := acceptCommand_of_running h
theorem exec_pp10 (v : BitVec 10) :
    exec (.pp10 v) s = .next (complete (zext10 (p10 v)) s) := acceptCommand_of_running h
theorem exec_pls (v : BitVec 10) :
    exec (.pls v) s = .next (complete (zext10 (ls v)) s) := acceptCommand_of_running h
theorem exec_pp8 (v : BitVec 10) :
    exec (.pp8 v) s = .next (complete (zext10 (p8 v)) s) := acceptCommand_of_running h
theorem exec_pep (r : Half) :
    exec (.pep r) s = .next (complete (zext10 (ep r)) s) := acceptCommand_of_running h
theorem exec_pp4 (r : Half) :
    exec (.pp4 r) s = .next (complete (zext10 (p4 r)) s) := acceptCommand_of_running h
theorem exec_psw (b : Block) :
    exec (.psw b) s = .next (complete (zext10 (sw b)) s) := acceptCommand_of_running h
theorem exec_sbox (v : BitVec 8) :
    exec (.sbox v) s = .next (complete (zext10 (sbox v)) s) := acceptCommand_of_running h
theorem exec_frnd (sel : SubkeySel) (r : Half) :
    exec (.frnd sel r) s = .next (withSubkey sel (fun k => zext10 (roundF r k)) s) := acceptCommand_of_running h
theorem exec_fstep (sel : SubkeySel) (b : Block) :
    exec (.fstep sel b) s = .next (withSubkey sel (fun k => zext10 (feistel b k)) s) := acceptCommand_of_running h

end Running

/-- Everything a step can do: wait, reset, run a decoded command, or reject a word (R44, R70). -/
theorem step_cases (s : State) :
    (s.pending = [] ∧ step s = .next (idle s)) ∨
      (∃ rest, s.pending = .reset :: rest ∧ step s = .next (applyReset { s with pending := rest })) ∨
      (∃ w rest i, s.pending = .command w :: rest ∧ decode w = .ok i ∧ step s = exec i { s with pending := rest }) ∨
      (∃ w rest e, s.pending = .command w :: rest ∧ decode w = .error e ∧
        step s = rejectWord e { s with pending := rest }) := by
  cases hp : s.pending with
  | nil => exact .inl ⟨rfl, by simp [step, takeEvent_nil hp]⟩
  | cons ev rest =>
    cases ev with
    | reset => exact .inr (.inl ⟨rest, rfl, by simp [step, takeEvent_cons hp]⟩)
    | command w =>
      cases hd : decode w with
      | ok i => exact .inr (.inr (.inl ⟨w, rest, i, rfl, hd, by simp [step, takeEvent_cons hp, hd]⟩))
      | error e => exact .inr (.inr (.inr ⟨w, rest, e, rfl, hd, step_of_rejected hp hd⟩))

end Sys2Proof.Machine
end

