-- ==== Sys2Proof/Tests/Slice0.lean ====
section
/-! SUPPORT. Tests, each on one step of a small state, with expected values from spec/ (95_test_vectors.md,
96_test_vectors_decode_and_faults.md and the examples of the rules), and for every statement with hypotheses a witness
that they can be met. -/

namespace Sys2Proof.Tests

open Sys2Proof.Machine

/-! Helpers -/

/-- The state after `KEYLD 0x1FD` of section 8a: K1 = 0x5F, K2 = 0x7D, V1 = V2 = 1. -/
def loaded : State := { State.reset with k1 := 0x5F#8, k2 := 0x7D#8, v1 := true, v2 := true }

/-- The state after `SKLD K1, 0x5F` from reset (section 8b). -/
def onlyK1 : State := { State.reset with k1 := 0x5F#8, v1 := true }

/-- The state after `SKLD K2, 0x7D` from reset (section 8b). -/
def onlyK2 : State := { State.reset with k2 := 0x7D#8, v2 := true }

/-- A faulted state with the given cause. -/
def faulted (c : BitVec 3) : State := { State.reset with fault := true, cause := c }

/-- The state with one word presented and nothing after it. -/
def presented (w : CmdWord) (s : State) : State := { s with pending := [.command w] }

/-- The last response of an outcome that is a next state. -/
def answer : Host.Outcome State Fault Refusal → Option Response
  | .next t => t.responses.getLast?
  | .fault _ => none
  | .refused _ => none

/-- K1, K2 and SR after an outcome that is a next state: the seven state columns of spec/95 and spec/96. -/
def columns : Host.Outcome State Fault Refusal → Option (BitVec 8 × BitVec 8 × BitVec 8)
  | .next t => some (t.k1, t.k2, t.sr)
  | .fault _ => none
  | .refused _ => none

/-- One word accepted in a state: its response and the state columns after it. -/
def accept (w : CmdWord) (s : State) : Option Response × Option (BitVec 8 × BitVec 8 × BitVec 8) :=
  (answer (step (presented w s)), columns (step (presented w s)))

/-! Well-formedness: each check of a line refuses a line that breaks it alone (R73, R64) -/

theorem test_wf_line_accepted : AsmLine.wellFormed ⟨.fstep, some .k2, some 0x19⟩ = true := by decide
theorem test_wf_missing_register_refused :
    AsmLine.kselFits ⟨.fstep, none, some 0x19⟩ = false ∧ AsmLine.wellFormed ⟨.fstep, none, some 0x19⟩ = false := by decide
theorem test_wf_extra_register_refused : AsmLine.wellFormed ⟨.enc, some .k1, some 0x02⟩ = false := by decide
theorem test_wf_missing_data_refused :
    AsmLine.dataStands ⟨.enc, none, none⟩ = false ∧ AsmLine.wellFormed ⟨.enc, none, none⟩ = false := by decide
theorem test_wf_extra_data_refused : AsmLine.wellFormed ⟨.keyclr, none, some 0⟩ = false := by decide
theorem test_wf_wide_data_refused :
    AsmLine.dataFits ⟨.pep, none, some 0x10⟩ = false ∧ AsmLine.wellFormed ⟨.pep, none, some 0x10⟩ = false ∧
    AsmLine.wellFormed ⟨.pep, none, some 0xF⟩ = true := by decide

/-! Decoding: one word per command, written out bit by bit from R61 and R65, ignored DATA bits set -/

theorem test_decode_keyld : decode 0b00001_0_0111111101#16 = .ok (.keyld 0b0111111101#10) := by decide
theorem test_decode_skld : decode 0b00010_1_11_01000011#16 = .ok (.skld .k2 0b01000011#8) := by decide
theorem test_decode_keyclr : decode 0b00011_0_1111111111#16 = .ok .keyclr := by decide
theorem test_decode_skrd : decode 0b00100_1_1010101010#16 = .ok (.skrd .k2) := by decide
theorem test_decode_enc : decode 0b01000_0_11_00000010#16 = .ok (.enc 0b00000010#8) := by decide
theorem test_decode_dec : decode 0b01001_0_01_11010010#16 = .ok (.dec 0b11010010#8) := by decide
theorem test_decode_pip : decode 0b10000_0_11_00000010#16 = .ok (.pip 0b00000010#8) := by decide
theorem test_decode_pipi : decode 0b10001_0_10_10011001#16 = .ok (.pipi 0b10011001#8) := by decide
theorem test_decode_pp10 : decode 0b10010_0_0111111101#16 = .ok (.pp10 0b0111111101#10) := by decide
theorem test_decode_pls : decode 0b10011_0_1111110011#16 = .ok (.pls 0b1111110011#10) := by decide
theorem test_decode_pp8 : decode 0b10100_0_1111100111#16 = .ok (.pp8 0b1111100111#10) := by decide
theorem test_decode_pep : decode 0b10101_0_111111_0001#16 = .ok (.pep 0b0001#4) := by decide
theorem test_decode_pp4 : decode 0b10110_0_111111_1100#16 = .ok (.pp4 0b1100#4) := by decide
theorem test_decode_psw : decode 0b10111_0_10_10010001#16 = .ok (.psw 0b10010001#8) := by decide
theorem test_decode_sbox : decode 0b11000_0_01_11011101#16 = .ok (.sbox 0b11011101#8) := by decide
theorem test_decode_frnd : decode 0b11001_1_000000_1001#16 = .ok (.frnd .k2 0b1001#4) := by decide
theorem test_decode_fstep : decode 0b11010_1_00_00011001#16 = .ok (.fstep .k2 0b00011001#8) := by decide
theorem test_decode_table_word :
    decodeTableWord 16 0xD419 = some (.fstep .k2 0x19#8) ∧ decodeTableWord 16 0xFFFF = none := by decide

/-! The key registers: sections 8a, 8b and program P5 -/

theorem test_keyld_example : accept 0x09FD#16 State.reset = (some ⟨false, 0x000#10⟩, some (0x5F#8, 0x7D#8, 0x03#8)) := by decide +kernel
theorem test_keyld_replaces_pair : accept 0x0A82#16 loaded = (some ⟨false, 0x000#10⟩, some (0xA4#8, 0x92#8, 0x03#8)) := by decide +kernel
theorem test_skld_k2_example : accept 0x1743#16 loaded = (some ⟨false, 0x000#10⟩, some (0x5F#8, 0x43#8, 0x03#8)) := by decide
theorem test_skld_k1_leaves_k2_invalid : accept 0x105F#16 State.reset = (some ⟨false, 0x000#10⟩, some (0x5F#8, 0x00#8, 0x01#8)) := by decide
theorem test_keyclr_ignores_data : accept 0x1BFF#16 loaded = (some ⟨false, 0x000#10⟩, some (0x00#8, 0x00#8, 0x00#8)) := by decide
theorem test_skrd_k2_example : accept 0x2400#16 loaded = (some ⟨false, 0x07D#10⟩, some (0x5F#8, 0x7D#8, 0x03#8)) := by decide
theorem test_skrd_invalid_faults : accept 0x2400#16 onlyK1 = (some ⟨true, 0x003#10⟩, some (0x00#8, 0x00#8, 0xB0#8)) := by decide

/-! The block cipher: sections 1, 6a and 8b -/

theorem test_enc_example : accept 0x4302#16 loaded = (some ⟨false, 0x0D2#10⟩, some (0x5F#8, 0x7D#8, 0x03#8)) := by decide +kernel
theorem test_enc_one_subkey_faults : accept 0x4002#16 onlyK1 = (some ⟨true, 0x003#10⟩, some (0x00#8, 0x00#8, 0xB0#8)) := by decide
theorem test_dec_example : accept 0x48D2#16 loaded = (some ⟨false, 0x002#10⟩, some (0x5F#8, 0x7D#8, 0x03#8)) := by decide +kernel
theorem test_dec_grid_entry : (accept 0x48B2#16 loaded).1 = some ⟨false, 0x0FE#10⟩ := by decide +kernel

/-! The permutation unit: the examples and corner cases of R112 to R119, section 2 -/

theorem test_pip_example : accept 0x8302#16 State.reset = (some ⟨false, 0x001#10⟩, some (0x00#8, 0x00#8, 0x00#8)) := by decide
theorem test_pip_pattern : (accept 0x8055#16 State.reset).1 = some ⟨false, 0x0CC#10⟩ := by decide
theorem test_pipi_example : (accept 0x8899#16 State.reset).1 = some ⟨false, 0x0D2#10⟩ := by decide
theorem test_pipi_pattern : (accept 0x880F#16 State.reset).1 = some ⟨false, 0x01B#10⟩ := by decide
theorem test_pp10_example : (accept 0x91FD#16 State.reset).1 = some ⟨false, 0x3F3#10⟩ := by decide
theorem test_pp10_pattern : (accept 0x9155#16 State.reset).1 = some ⟨false, 0x0B3#10⟩ := by decide
theorem test_pls_example : (accept 0x9BF3#16 State.reset).1 = some ⟨false, 0x3E7#10⟩ := by decide
theorem test_pls_wraps_in_half : (accept 0x9A10#16 State.reset).1 = some ⟨false, 0x021#10⟩ := by decide
theorem test_pp8_example : (accept 0xA3E7#16 State.reset).1 = some ⟨false, 0x05F#10⟩ := by decide
theorem test_pp8_drops_high_bits : (accept 0xA300#16 State.reset).1 = some ⟨false, 0x000#10⟩ := by decide
theorem test_pep_example : (accept 0xABF1#16 State.reset).1 = some ⟨false, 0x082#10⟩ := by decide
theorem test_pep_pattern : (accept 0xA80B#16 State.reset).1 = some ⟨false, 0x0D7#10⟩ := by decide
theorem test_pp4_example : (accept 0xB00C#16 State.reset).1 = some ⟨false, 0x009#10⟩ := by decide
theorem test_pp4_pattern : (accept 0xB001#16 State.reset).1 = some ⟨false, 0x004#10⟩ := by decide
theorem test_psw_example : (accept 0xB891#16 State.reset).1 = some ⟨false, 0x019#10⟩ := by decide
theorem test_psw_pattern : (accept 0xB8D2#16 State.reset).1 = some ⟨false, 0x02D#10⟩ := by decide

/-! The substitution and round units: sections 3c, 4a and 4c -/

theorem test_sbox_source_entries : (accept 0xC0FF#16 State.reset).1 = some ⟨false, 0x007#10⟩ := by decide
theorem test_sbox_index_significance : (accept 0xC018#16 State.reset).1 = some ⟨false, 0x00F#10⟩ := by decide
theorem test_frnd_k1_example : accept 0xCBF1#16 onlyK1 = (some ⟨false, 0x009#10⟩, some (0x5F#8, 0x00#8, 0x01#8)) := by decide
theorem test_frnd_k2_example : (accept 0xCC09#16 loaded).1 = some ⟨false, 0x008#10⟩ := by decide
theorem test_fstep_k1_example : (accept 0xD001#16 loaded).1 = some ⟨false, 0x091#10⟩ := by decide
theorem test_fstep_k2_example : (accept 0xD419#16 loaded).1 = some ⟨false, 0x099#10⟩ := by decide

/-! Faults, the faulted state and reset: sections 8a and 8c -/

theorem test_illegal_opcode : accept 0x2800#16 loaded = (some ⟨true, 0x001#10⟩, some (0x00#8, 0x00#8, 0x90#8)) := by decide
theorem test_illegal_before_ks : accept 0x0400#16 State.reset = (some ⟨true, 0x001#10⟩, some (0x00#8, 0x00#8, 0x90#8)) := by decide
theorem test_reserved_field : accept 0x0DFD#16 loaded = (some ⟨true, 0x002#10⟩, some (0x00#8, 0x00#8, 0xA0#8)) := by decide
theorem test_reserved_before_invalid : accept 0x4402#16 State.reset = (some ⟨true, 0x002#10⟩, some (0x00#8, 0x00#8, 0xA0#8)) := by decide
theorem test_faulted_refuses_keyld : accept 0x09FD#16 (faulted 2#3) = (some ⟨true, 0x002#10⟩, some (0x00#8, 0x00#8, 0xA0#8)) := by decide
theorem test_faulted_keeps_first_cause : accept 0x0000#16 (faulted 3#3) = (some ⟨true, 0x003#10⟩, some (0x00#8, 0x00#8, 0xB0#8)) := by decide
theorem test_reset_leaves_faulted_state :
    columns (step { faulted 1#3 with pending := [.reset] }) = some (0x00#8, 0x00#8, 0x00#8) := by decide
theorem test_fetch_word_runs_first : answer (step (State.reset.withFetchWord 16 0xC0DD)) = some ⟨false, 0x00C#10⟩ := by decide

/-! Assembler and message procedure: R73 and section 7 -/

theorem test_assemble_text :
    assembleText ['S', 'K', 'L', 'D', ' ', 'K', '2', ',', '6', '7', ' ', ';', 'x'] = some 0x1443#16 ∧
    assembleText ['K', 'E', 'Y', 'C', 'L', 'R'] = some 0x1800#16 ∧
    assembleText ['P', 'E', 'P', ' ', '0', 'b', '1', '0', '0', '0', '0'] = none := by decide
theorem test_msg_encrypt : msgEncrypt [0x48, 0x69, 0x21] 0x5FD = [0xC7, 0xBE, 0x41] := by decide +kernel
theorem test_msg_wide_character : msgDecrypt (msgEncrypt [0x0141, 0x41] 0x1FD) 0x1FD = [0x41, 0x41] := by decide +kernel
theorem test_msgenc_commands :
    msgencCommands 0x1FD [0x48, 0x69, 0x21] = [0x09FD#16, 0x4048#16, 0x4069#16, 0x4021#16, 0x1800#16] := by decide

/-! Witnesses: for every statement with hypotheses, inputs that meet them together -/

theorem witness_WordSelectsTableRow :
    (0xD419#16 &&& 0xF800#16 = 0xD000#16) ∧ (0x0BFF#16 &&& 0xFC00#16 = 0x0800#16) ∧ (0x0C00#16 &&& 0xFC00#16 ≠ 0x0800#16) := by
  decide
theorem witness_HighDataBitsIgnored :
    decode 0x4002#16 = .ok (.enc 0x02#8) ∧ 0x4302#16 >>> 10 = 0x4002#16 >>> 10 ∧
    ∀ n < operandWidth (formatOf .enc), (0x4302#16).getLsbD n = (0x4002#16).getLsbD n := by decide
theorem witness_AssembleAndDisassemble :
    assemble ⟨.fstep, some .k2, some 0x19⟩ = some 0xD419#16 ∧ assemble ⟨.pep, none, some 0x10⟩ = none := by decide
theorem witness_ResetClearsEveryRegister : ({ faulted 1#3 with pending := [.reset] } : State).pending = .reset :: [] := rfl
theorem witness_IdleChangesNothing : loaded.pending = [] := rfl
theorem witness_StepRunsDecodedCommand :
    (presented 0x4002#16 loaded).pending = .command 0x4002#16 :: [] ∧ decode 0x4002#16 = .ok (.enc 0x02#8) := by decide
theorem witness_OneResponsePerCommand :
    (presented 0x4002#16 loaded).pending = .command 0x4002#16 :: [] ∧
    (answer (step (presented 0x4002#16 loaded))).map Response.err = some false ∧
    (answer (step (presented 0x4002#16 onlyK2))).map Response.err = some true := by decide
theorem witness_StepDependsOnWordAndRegisters :
    State.SameRegisters (presented 0x4002#16 loaded) { presented 0x4002#16 loaded with responses := [⟨false, 0#10⟩] } ∧
    (presented 0x4002#16 loaded).pending = .command 0x4002#16 :: [] ∧
    ({ presented 0x4002#16 loaded with responses := [⟨false, 0#10⟩] } : State).pending = .command 0x4002#16 :: [] := by
  decide
theorem witness_EveryStepKeepsInvariants :
    (presented 0x4002#16 loaded).Inv ∧ (presented 0x0000#16 (faulted 3#3)).Inv ∧
    step (presented 0x1800#16 loaded) = .next { State.reset with responses := [⟨false, 0#10⟩] } :=
  ⟨by decide, by decide, rfl⟩
theorem witness_ReservedOpcodeFaults :
    (presented 0x0000#16 loaded).fault = false ∧ (presented 0x0000#16 loaded).pending = .command 0x0000#16 :: [] ∧
    (0x0000#16).extractLsb' 11 5 = 0x00#5 ∧ (0x2800#16).extractLsb' 11 5 = 0x05#5 ∧
    (0xFFFF#16).extractLsb' 11 5 = 0x1F#5 := by decide
theorem witness_ReservedFieldFaults :
    (presented 0x0DFD#16 loaded).fault = false ∧ (presented 0x0DFD#16 loaded).pending = .command 0x0DFD#16 :: [] ∧
    (0x0DFD#16).extractLsb' 11 5 = 0x01#5 ∧ (0x0DFD#16).getLsbD 10 = true ∧
    (0xC4FF#16).extractLsb' 11 5 = 0x18#5 ∧ (0xC4FF#16).getLsbD 10 = true := by decide
theorem witness_InvalidSubkeyFaults :
    State.reset.fault = false ∧ State.reset.v1 = false ∧ onlyK1.fault = false ∧ onlyK1.v1 = true ∧ onlyK1.v2 = false ∧
    onlyK2.fault = false ∧ onlyK2.v1 = false ∧ onlyK2.v2 = true := by decide
theorem witness_FirstApplicableFaultIsRaised :
    (presented 0x0400#16 State.reset).fault = false ∧
    (presented 0x0400#16 State.reset).pending = .command 0x0400#16 :: [] ∧
    (accept 0x0400#16 State.reset).1 = some ⟨true, 1#10⟩ ∧ (accept 0x4402#16 State.reset).1 = some ⟨true, 2#10⟩ ∧
    (accept 0x4002#16 State.reset).1 = some ⟨true, 3#10⟩ ∧ (accept 0xC801#16 onlyK2).1 = some ⟨true, 3#10⟩ ∧
    (accept 0xCC01#16 onlyK2).1.map Response.err = some false := by decide
theorem witness_FaultEntryIsWholeEffect :
    (presented 0x4402#16 loaded).fault = false ∧ (faulted 2#3).fault = true ∧
    (presented 0x4402#16 loaded).pending = .command 0x4402#16 :: [] ∧
    step (presented 0x4402#16 loaded) = .next { faulted 2#3 with responses := [⟨true, 2#10⟩] } := ⟨rfl, rfl, rfl, rfl⟩
theorem witness_FaultedStateRefusesEveryCommand :
    (presented 0x0000#16 (faulted 3#3)).fault = true ∧
    (presented 0x0000#16 (faulted 3#3)).pending = .command 0x0000#16 :: [] ∧ (faulted 1#3).Inv ∧ (faulted 3#3).Inv := by decide
theorem witness_OnlyResetClearsFault :
    (presented 0x09FD#16 (faulted 1#3)).fault = true ∧
    step (presented 0x09FD#16 (faulted 1#3)) = .next { faulted 1#3 with responses := [⟨true, 1#10⟩] } ∧
    ¬ ∃ rest, (presented 0x09FD#16 (faulted 1#3)).pending = .reset :: rest := ⟨rfl, rfl, by simp [presented]⟩
theorem witness_FrameOfCompletedCommands :
    loaded.fault = false ∧
    exec (.skrd .k1) loaded = .next { loaded with responses := [⟨false, 0x05F#10⟩] } ∧
    exec (.skld .k1 0xFF#8) loaded = .next { loaded with k1 := 0xFF#8, responses := [⟨false, 0#10⟩] } ∧
    exec (.skld .k2 0x00#8) loaded = .next { loaded with k2 := 0x00#8, responses := [⟨false, 0#10⟩] } := ⟨rfl, rfl, rfl, rfl⟩
/-- The hypotheses of the commands that need no subkey: KEYLD, SKLD, KEYCLR, the eight permutation commands, SBOX, and
of the load-order and schedule statements. -/
theorem witness_CommandsWithoutSubkey : State.reset.fault = false ∧ loaded.fault = false := by decide
theorem witness_SkrdFrndFstepSelected :
    onlyK1.fault = false ∧ onlyK1.v1 = true ∧ onlyK2.fault = false ∧ onlyK2.v2 = true := by decide
/-- The hypotheses of the statements about ENC and DEC. -/
theorem witness_EncDecPairValid : loaded.fault = false ∧ loaded.v1 = true ∧ loaded.v2 = true := by decide
theorem witness_SboxRespondsByGroup :
    State.reset.fault = false ∧
    [1#2, 3#2, 0#2, 2#2, 3#2, 1#2, 2#2, 0#2, 0#2, 3#2, 2#2, 1#2, 1#2, 3#2, 3#2, 1#2][((0xF0#8).extractLsb' 4 4).toNat]?
      = some 1#2 ∧
    [1#2, 2#2, 1#2, 0#2, 2#2, 1#2, 3#2, 3#2, 3#2, 2#2, 0#2, 1#2, 1#2, 0#2, 0#2, 3#2][((0xF0#8).extractLsb' 0 4).toNat]?
      = some 1#2 := by decide
theorem witness_SubkeyLoadOrderIrrelevant : State.reset.fault = false ∧ (0x5F#8, 0x7D#8) = keySchedule 0x1FD#10 := by decide +kernel
theorem witness_BlockCommandsIndependent :
    loaded.fault = false ∧ loaded.v1 = true ∧ loaded.v2 = true ∧ (Instr.enc 0x00#8).mnemonic ∈ [Mnemonic.enc, .dec] ∧ (Instr.dec 0xFF#8).mnemonic ∈ [Mnemonic.enc, .dec] := by decide
theorem witness_MessageRoundTrip : ∀ p ∈ [0, 0x48, 255], p ≤ 255 := by decide
theorem witness_MessageExpansionsComputeMessages :
    State.reset.fault = false ∧
    ({ State.reset with pending := (msgencCommands 0x1FD [0x48]).map .command } : State).pending =
      (msgencCommands 0x1FD [0x48]).map .command ∧
    ({ State.reset with pending := (msgdecCommands 0x1FD [0xC7]).map .command } : State).pending =
      (msgdecCommands 0x1FD [0xC7]).map .command := ⟨rfl, rfl, rfl⟩

end Sys2Proof.Tests
end

section
/-! PROOF. Noninterference (R15, R70): no operation of the engine reads the pending host events or the earlier
responses, so states with the same registers answer alike. One lemma for each shared operation, then the seventeen
commands, then the step. -/

namespace Sys2Proof.Machine

section SameRegisters

variable {s s' : State} (h : s.SameRegisters s')
include h

/-! What states with the same registers read and keep. -/

theorem State.SameRegisters.valid_eq (sel : SubkeySel) : s.valid sel = s'.valid sel := by
  obtain ⟨-, -, hv1, hv2, -, -⟩ := h
  cases sel
  case k1 => exact hv1
  case k2 => exact hv2

theorem State.SameRegisters.subkey_eq (sel : SubkeySel) : s.subkey sel = s'.subkey sel := by
  obtain ⟨hk1, hk2, -, -, -, -⟩ := h
  cases sel
  case k1 => exact hk1
  case k2 => exact hk2

theorem State.SameRegisters.pairValid_eq : s.pairValid = s'.pairValid := by
  obtain ⟨-, -, hv1, hv2, -, -⟩ := h
  simp [State.pairValid, hv1, hv2]

theorem State.SameRegisters.fault_eq : s.fault = s'.fault := by
  obtain ⟨-, -, -, -, hf, -⟩ := h
  exact hf

theorem State.SameRegisters.cause_eq : s.cause = s'.cause := by
  obtain ⟨-, -, -, -, -, hc⟩ := h
  exact hc

theorem State.SameRegisters.loadPair (a b : Subkey) : (s.loadPair a b).SameRegisters (s'.loadPair a b) :=
  ⟨rfl, rfl, rfl, rfl, h.fault_eq, h.cause_eq⟩

theorem State.SameRegisters.clearPair : s.clearPair.SameRegisters s'.clearPair :=
  ⟨rfl, rfl, rfl, rfl, h.fault_eq, h.cause_eq⟩

theorem State.SameRegisters.loadSubkey (sel : SubkeySel) (v : Subkey) :
    (s.loadSubkey sel v).SameRegisters (s'.loadSubkey sel v) := by
  obtain ⟨hk1, hk2, hv1, hv2, hf, hc⟩ := h
  cases sel
  case k1 => exact ⟨rfl, hk2, rfl, hv2, hf, hc⟩
  case k2 => exact ⟨hk1, rfl, hv1, rfl, hf, hc⟩

end SameRegisters

@[simp] theorem loadSubkey_responses (s : State) (sel : SubkeySel) (v : Subkey) :
    (s.loadSubkey sel v).responses = s.responses := by cases sel <;> rfl

/-- From `s` to `t` and from `s'` to `t'` one same response is given, and `t` and `t'` have the same registers. -/
def AnswerAlike (s s' t t' : State) : Prop :=
  t.SameRegisters t' ∧ ∃ r, t.responses = s.responses ++ [r] ∧ t'.responses = s'.responses ++ [r]

/-- From states with the same registers, what `body` does to the registers and what it responds are the same. -/
def ReadsOnlyRegisters (body : State → State) : Prop :=
  ∀ s s' : State, s.SameRegisters s' → AnswerAlike s s' (body s) (body s')

/-! The shared operations (R43, R201, R204, R206). -/

/-- Completing with the same data after like register updates that give no response of their own. -/
theorem answerAlike_complete {s s' u u' : State} (d : Data) (h : u.SameRegisters u')
    (hu : u.responses = s.responses) (hu' : u'.responses = s'.responses) :
    AnswerAlike s s' (complete d u) (complete d u') :=
  ⟨h, ⟨false, d⟩, by simp [hu], by simp [hu']⟩

theorem complete_readsOnlyRegisters (d : Data) : ReadsOnlyRegisters (complete d) :=
  fun _ _ h => answerAlike_complete d h rfl rfl

theorem raiseFault_readsOnlyRegisters (c : FaultCause) : ReadsOnlyRegisters (raiseFault c) :=
  fun _ _ _ => ⟨⟨rfl, rfl, rfl, rfl, rfl, rfl⟩, _, raiseFault_responses _ _, raiseFault_responses _ _⟩

theorem refuseFaulted_readsOnlyRegisters : ReadsOnlyRegisters refuseFaulted := fun s s' h =>
  ⟨h, ⟨true, zext10 s.cause⟩, refuseFaulted_responses s, by rw [h.cause_eq, refuseFaulted_responses]⟩

theorem withSubkey_readsOnlyRegisters (sel : SubkeySel) (f : Subkey → Data) :
    ReadsOnlyRegisters (withSubkey sel f) := by
  intro s s' h
  rw [withSubkey, withSubkey, h.valid_eq sel, h.subkey_eq sel]
  split
  · exact complete_readsOnlyRegisters _ s s' h
  · exact raiseFault_readsOnlyRegisters _ s s' h

theorem withSubkeyPair_readsOnlyRegisters (f : Subkey → Subkey → Data) :
    ReadsOnlyRegisters (withSubkeyPair f) := by
  intro s s' h
  have hk1 : s.k1 = s'.k1 := h.subkey_eq .k1
  have hk2 : s.k2 = s'.k2 := h.subkey_eq .k2
  rw [withSubkeyPair, withSubkeyPair, h.pairValid_eq, hk1, hk2]
  split
  · exact complete_readsOnlyRegisters _ s s' h
  · exact raiseFault_readsOnlyRegisters _ s s' h

/-- The test of FAULT before a command reads only the registers too (R70, R206). -/
theorem acceptCommand_answerAlike {body : State → State} (hb : ReadsOnlyRegisters body) {s s' : State}
    (h : s.SameRegisters s') :
    ∃ t t', acceptCommand body s = .next t ∧ acceptCommand body s' = .next t' ∧ AnswerAlike s s' t t' := by
  have hfault := h.fault_eq
  cases hf : s.fault with
  | true =>
    exact ⟨_, _, acceptCommand_of_faulted hf, acceptCommand_of_faulted (hfault ▸ hf),
      refuseFaulted_readsOnlyRegisters s s' h⟩
  | false =>
    exact ⟨_, _, acceptCommand_of_running hf, acceptCommand_of_running (hfault ▸ hf), hb s s' h⟩

/-! The commands and the step. -/

theorem exec_body_readsOnlyRegisters (i : Instr) :
    ∃ body, exec i = acceptCommand body ∧ ReadsOnlyRegisters body := by
  cases i
  case keyld key => exact ⟨_, rfl, fun _ _ h => answerAlike_complete _ (h.loadPair _ _) rfl rfl⟩
  case skld sel v =>
    exact ⟨_, rfl, fun _ _ h =>
      answerAlike_complete _ (h.loadSubkey sel v) (loadSubkey_responses _ _ _) (loadSubkey_responses _ _ _)⟩
  case keyclr => exact ⟨_, rfl, fun _ _ h => answerAlike_complete _ h.clearPair rfl rfl⟩
  case skrd sel => exact ⟨_, rfl, withSubkey_readsOnlyRegisters _ _⟩
  case frnd sel r => exact ⟨_, rfl, withSubkey_readsOnlyRegisters _ _⟩
  case fstep sel b => exact ⟨_, rfl, withSubkey_readsOnlyRegisters _ _⟩
  case enc b => exact ⟨_, rfl, withSubkeyPair_readsOnlyRegisters _⟩
  case dec b => exact ⟨_, rfl, withSubkeyPair_readsOnlyRegisters _⟩
  all_goals exact ⟨_, rfl, complete_readsOnlyRegisters _⟩

/-- The step of a word the decoder accepts (R41, R70). -/
theorem step_of_decoded {s : State} {w : CmdWord} {rest : List HostEvent} {i : Instr}
    (hp : s.pending = .command w :: rest) (hd : decode w = .ok i) :
    step s = exec i { s with pending := rest } := by simp [step, takeEvent_cons hp, hd]

/-- The word alone fixes what its step does to the registers and what it responds: the decoded command, or the fault
of a rejected word (R69, R70). -/
theorem step_body_readsOnlyRegisters (w : CmdWord) :
    ∃ body, ReadsOnlyRegisters body ∧
      ∀ (s : State) (rest : List HostEvent), s.pending = .command w :: rest →
        step s = acceptCommand body { s with pending := rest } := by
  cases hd : decode w with
  | ok i =>
    obtain ⟨body, e, hb⟩ := exec_body_readsOnlyRegisters i
    exact ⟨body, hb, fun s rest hp => by rw [step_of_decoded hp hd, e]⟩
  | error err => exact ⟨_, raiseFault_readsOnlyRegisters _, fun s rest hp => step_of_rejected hp hd⟩

/-- Settles O12: the word fixes the body of its step, and every body reads only the registers. -/
theorem stepDependsOnWordAndRegisters : Obligations.StepDependsOnWordAndRegisters := by
  unfold Obligations.StepDependsOnWordAndRegisters
  intro s s' w rest rest' h hp hp'
  obtain ⟨body, hb, hstep⟩ := step_body_readsOnlyRegisters w
  have htaken : State.SameRegisters { s with pending := rest } { s' with pending := rest' } := h
  obtain ⟨t, t', ht, ht', hregs, r, hr, hr'⟩ := acceptCommand_answerAlike hb htaken
  exact ⟨t, t', r, (hstep s rest hp).trans ht, (hstep s' rest' hp').trans ht', hregs, hr, hr'⟩

end Sys2Proof.Machine
end

section
/-! PROOF. The state (10_state.md): reset, SR, the invariants of R24 and R26, the persistence of a fault, and the
frame of the commands. -/

namespace Sys2Proof.Machine

/-! Reset (R32, R230) and the status register (R27). -/

/-- The step of a pending reset (R230). -/
theorem step_of_reset {s : State} {rest : List HostEvent} (hp : s.pending = .reset :: rest) :
    step s = .next (applyReset { s with pending := rest }) := by simp [step, takeEvent_cons hp]

/-- Settles O7: a pending reset is taken, and it writes the reset value of every register. -/
theorem resetClearsEveryRegister : Obligations.ResetClearsEveryRegister := by
  unfold Obligations.ResetClearsEveryRegister
  refine ⟨⟨rfl, rfl, rfl, rfl, rfl, rfl, rfl⟩, fun s rest hp => ?_⟩
  rw [step_of_reset hp, applyReset, State.reset]

/-- The bits of SR, from the least significant up (R27). -/
theorem sr_getLsbD (s : State) (n : Nat) :
    s.sr.getLsbD n =
      if n = 0 then s.v1 else if n = 1 then s.v2 else if n < 4 then false
      else if n < 7 then s.cause.getLsbD (n - 4) else (BitVec.ofBool s.fault).getLsbD (n - 7) := by
  simp only [State.sr, BitVec.getLsbD_append, BitVec.getLsbD_ofBool]
  grind

/-- Settles O15: each field of SR is read off bit by bit. -/
theorem statusRegisterFields : Obligations.StatusRegisterFields := by
  unfold Obligations.StatusRegisterFields
  refine ⟨fun s => ⟨?fault, ?cause, ?zeros, ?v2, ?v1, ?pin⟩, rfl⟩
  case cause =>
    ext i hi
    simp [sr_getLsbD, hi, show 4 + i ≠ 1 by omega, show 4 + i < 7 by omega]
  case zeros =>
    ext i hi
    simp [sr_getLsbD, show 2 + i ≠ 1 by omega, show 2 + i < 4 by omega]
  all_goals rw [sr_getLsbD]; simp

/-! What a step can do, and what each effect keeps of the invariants (R24, R26). -/

/-- A rejected word is refused in the faulted state and otherwise raises its fault (R66, R67, R206). -/
theorem rejectWord_cases {e : DecodeError} {s t : State} (h : rejectWord e s = .next t) :
    (s.fault = true ∧ t = refuseFaulted s) ∨
      (s.fault = false ∧ t = raiseFault (causeOfDecodeError e) s) := acceptCommand_next.mp h

/-- Everything a step can lead to: the same state, the reset state, or, once the word is taken, a refusal when FAULT
is 1 and a fault entry or a command's effect when it is 0 (R44, R70). -/
theorem step_next_cases {s t : State} (h : step s = .next t) :
    t = s ∨
      (∃ rest, s.pending = .reset :: rest ∧ t = applyReset { s with pending := rest }) ∨
      (∃ rest, s.fault = true ∧ t = refuseFaulted { s with pending := rest }) ∨
      (∃ rest, s.fault = false ∧
        ((∃ c, t = raiseFault c { s with pending := rest }) ∨ CommandEffect { s with pending := rest } t)) := by
  rcases step_cases s with ⟨-, e⟩ | ⟨rest, hp, e⟩ | ⟨w, rest, i, -, -, e⟩ | ⟨w, rest, err, -, -, e⟩ <;> rw [e] at h
  case inl => exact .inl (Host.Outcome.next.inj h).symm
  case inr.inl => exact .inr (.inl ⟨rest, hp, (Host.Outcome.next.inj h).symm⟩)
  case inr.inr.inl =>
    rcases exec_cases h with ⟨hf, ht⟩ | ⟨hf, ht⟩
    · exact .inr (.inr (.inl ⟨rest, hf, ht⟩))
    · exact .inr (.inr (.inr ⟨rest, hf, .inr ht⟩))
  case inr.inr.inr =>
    rcases rejectWord_cases h with ⟨hf, ht⟩ | ⟨hf, ht⟩
    · exact .inr (.inr (.inl ⟨rest, hf, ht⟩))
    · exact .inr (.inr (.inr ⟨rest, hf, .inl ⟨_, ht⟩⟩))

/-- Fault entry establishes the invariants, whatever held before (R204). -/
theorem raiseFault_inv (c : FaultCause) (s : State) : (raiseFault c s).Inv := by
  cases c <;> simp [State.Inv, FaultCause.code]

/-- Loading both subkeys makes both valid, and the engine is not faulted (R153). -/
theorem loadPair_inv {s : State} (hf : s.fault = false) (hi : s.Inv) (a b : Subkey) : (s.loadPair a b).Inv := by
  obtain ⟨-, -, hfc, -, hc⟩ := hi
  exact ⟨nofun, nofun, hfc, by simp [hf], hc⟩

/-- Loading one subkey makes it valid and leaves the other's clause as it was (R155). -/
theorem loadSubkey_inv {s : State} (hf : s.fault = false) (hi : s.Inv) (sel : SubkeySel) (v : Subkey) :
    (s.loadSubkey sel v).Inv := by
  obtain ⟨hk1, hk2, hfc, -, hc⟩ := hi
  cases sel
  case k1 => exact ⟨nofun, hk2, hfc, by simp [hf], hc⟩
  case k2 => exact ⟨hk1, nofun, hfc, by simp [hf], hc⟩

theorem clearPair_inv {s : State} (hi : s.Inv) : s.clearPair.Inv := by
  obtain ⟨-, -, hfc, -, hc⟩ := hi
  exact ⟨fun _ => rfl, fun _ => rfl, hfc, fun _ => ⟨rfl, rfl, rfl, rfl⟩, hc⟩

/-- The invariants speak of the registers only, so responding keeps them (R43). -/
@[simp] theorem complete_inv_iff (d : Data) (s : State) : (complete d s).Inv ↔ s.Inv := Iff.rfl

/-- Every effect of an unfaulted command keeps the invariants (R33). -/
theorem CommandEffect.inv {s t : State} (h : CommandEffect s t) (hf : s.fault = false) (hi : s.Inv) : t.Inv := by
  rcases h with rfl | ⟨d, rfl | ⟨a, b, rfl⟩ | ⟨sel, v, rfl⟩ | rfl⟩
  · exact raiseFault_inv _ s
  · exact (complete_inv_iff d _).mpr hi
  · exact (complete_inv_iff d _).mpr (loadPair_inv hf hi a b)
  · exact (complete_inv_iff d _).mpr (loadSubkey_inv hf hi sel v)
  · exact (complete_inv_iff d _).mpr (clearPair_inv hi)

/-- Settles O13, by evaluation of the reset state. -/
theorem resetMeetsInvariants : Obligations.ResetMeetsInvariants := by
  unfold Obligations.ResetMeetsInvariants
  decide

/-- Settles O14, by the cases of a step: waiting and refusing keep the registers, reset and fault entry establish the
invariants, and every effect of an unfaulted command keeps them. -/
theorem everyStepKeepsInvariants : Obligations.EveryStepKeepsInvariants := by
  unfold Obligations.EveryStepKeepsInvariants
  intro s t hi h
  rcases step_next_cases h with rfl | ⟨rest, -, rfl⟩ | ⟨rest, -, rfl⟩ | ⟨rest, hf, ⟨c, rfl⟩ | he⟩
  · exact hi
  · exact resetMeetsInvariants
  · exact hi
  · exact raiseFault_inv c _
  · exact he.inv hf hi

/-- Settles O22: with FAULT = 1 a step other than reset waits or refuses, and neither writes FAULT or CAUSE. -/
theorem onlyResetClearsFault : Obligations.OnlyResetClearsFault := by
  unfold Obligations.OnlyResetClearsFault
  intro s t h hf hnr
  rcases step_next_cases h with rfl | ⟨rest, hp, -⟩ | ⟨rest, -, rfl⟩ | ⟨rest, hrun, -⟩
  · exact ⟨hf, rfl⟩
  · exact absurd ⟨rest, hp⟩ hnr
  · exact ⟨hf, rfl⟩
  · simp [hf] at hrun

/-! The frame of a command that completes (R21, R23, R33, R51). -/

/-- What a command that completes leaves alone whatever registers it loads: the host's list and CAUSE. It gives one
response, without error. -/
theorem CommandEffect.frame {s t : State} (h : CommandEffect s t) (hf : t.fault = false) :
    t.pending = s.pending ∧ t.cause = s.cause ∧ ∃ d, t.responses = s.responses ++ [⟨false, d⟩] := by
  rcases h with rfl | ⟨d, rfl | ⟨a, b, rfl⟩ | ⟨sel, v, rfl⟩ | rfl⟩
  case inl => simp at hf
  case inr.inr.inr.inl => cases sel <;> exact ⟨rfl, rfl, d, rfl⟩
  all_goals exact ⟨rfl, rfl, d, rfl⟩

/-- What a command that writes no key register does: it takes the SUBKEY_INVALID fault or completes with some data over
the state unchanged (R33). -/
def ReadOnlyEffect (s t : State) : Prop := t = raiseFault .subkeyInvalid s ∨ ∃ d, t = complete d s

theorem withSubkey_readOnly (sel : SubkeySel) (f : Subkey → Data) (s : State) :
    ReadOnlyEffect s (withSubkey sel f s) := by
  rcases withSubkey_cases sel f s with ⟨-, e⟩ | ⟨-, e⟩
  · exact .inr ⟨_, e⟩
  · exact .inl e

theorem withSubkeyPair_readOnly (f : Subkey → Subkey → Data) (s : State) :
    ReadOnlyEffect s (withSubkeyPair f s) := by
  rcases withSubkeyPair_cases f s with ⟨-, e⟩ | ⟨-, e⟩
  · exact .inr ⟨_, e⟩
  · exact .inl e

/-- Only KEYLD, SKLD and KEYCLR write a key register (R21, R23). -/
theorem exec_body_readOnly {i : Instr} (hi : i.mnemonic ∉ [.keyld, .skld, .keyclr]) :
    ∃ body, exec i = acceptCommand body ∧ ∀ s, ReadOnlyEffect s (body s) := by
  cases i
  case keyld | skld | keyclr => simp [Instr.mnemonic] at hi
  case skrd | frnd | fstep => exact ⟨_, rfl, withSubkey_readOnly _ _⟩
  case enc | dec => exact ⟨_, rfl, withSubkeyPair_readOnly _⟩
  all_goals exact ⟨_, rfl, fun s => .inr ⟨_, rfl⟩⟩

theorem ReadOnlyEffect.sameRegisters {s t : State} (h : ReadOnlyEffect s t) (hf : t.fault = false) :
    s.SameRegisters t := by
  rcases h with rfl | ⟨d, rfl⟩
  · simp at hf
  · exact ⟨rfl, rfl, rfl, rfl, rfl, rfl⟩

/-- Settles O23: the frame every effect has, then the registers by whether the command writes any. -/
theorem frameOfCompletedCommands : Obligations.FrameOfCompletedCommands := by
  unfold Obligations.FrameOfCompletedCommands
  intro i s t hs h ht
  have heffect : CommandEffect s t := by
    rcases exec_cases h with ⟨hf, -⟩ | ⟨-, he⟩
    · simp [hs] at hf
    · exact he
  obtain ⟨hpending, hcause, hresponse⟩ := heffect.frame ht
  refine ⟨hpending, hcause, hresponse, fun hi => ?registers, ?skldK1, ?skldK2⟩
  case registers =>
    obtain ⟨body, e, hbody⟩ := exec_body_readOnly hi
    rw [e, acceptCommand_of_running hs] at h
    obtain rfl := Host.Outcome.next.inj h
    exact (hbody s).sameRegisters ht
  case skldK1 =>
    rintro v rfl
    obtain rfl := Host.Outcome.next.inj ((exec_skld hs .k1 v).symm.trans h)
    exact ⟨rfl, rfl⟩
  case skldK2 =>
    rintro v rfl
    obtain rfl := Host.Outcome.next.inj ((exec_skld hs .k2 v).symm.trans h)
    exact ⟨rfl, rfl⟩

end Sys2Proof.Machine
end

section
/-! PROOF. What the engine does with the host's words and tables (20_memory.md): the step of a decoded command, the
response every command gives, and the contents of the S-boxes by flat address. -/

namespace Sys2Proof.Machine

/-- Settles O9, by the equation of the step of a word the decoder accepts. -/
theorem stepRunsDecodedCommand : Obligations.StepRunsDecodedCommand := by
  unfold Obligations.StepRunsDecodedCommand
  exact fun _ _ _ _ => step_of_decoded

/-! One response per command (R42, R43, R208). -/

/-- From `s` to `t` the host's list is left alone and one response is given, an error exactly when `t` is faulted, and
then with the recorded cause as data (R43). -/
def RespondsOnce (s t : State) : Prop :=
  t.pending = s.pending ∧ ∃ r, t.responses = s.responses ++ [r] ∧
    (r.err = true ↔ t.fault = true) ∧ (r.err = true → r.data = t.cause.setWidth 10)

theorem refuseFaulted_respondsOnce {s : State} (hf : s.fault = true) : RespondsOnce s (refuseFaulted s) :=
  ⟨rfl, _, refuseFaulted_responses s, by simp [hf], fun _ => rfl⟩

theorem raiseFault_respondsOnce (c : FaultCause) (s : State) : RespondsOnce s (raiseFault c s) :=
  ⟨rfl, _, raiseFault_responses s c, by simp, fun _ => rfl⟩

/-- Completing after a register update `u` of `s` that gives no response of its own and raises no fault. -/
theorem complete_respondsOnce {s u : State} (d : Data) (hp : u.pending = s.pending)
    (hr : u.responses = s.responses) (hf : u.fault = false) : RespondsOnce s (complete d u) :=
  ⟨hp, ⟨false, d⟩, by simp [hr], by simp [hf], nofun⟩

/-- Every effect of an unfaulted command gives its one response (R33, R42). -/
theorem CommandEffect.respondsOnce {s t : State} (h : CommandEffect s t) (hf : s.fault = false) :
    RespondsOnce s t := by
  rcases h with rfl | ⟨d, rfl | ⟨a, b, rfl⟩ | ⟨sel, v, rfl⟩ | rfl⟩
  case inl => exact raiseFault_respondsOnce _ s
  case inr.inr.inr.inl => cases sel <;> exact complete_respondsOnce d rfl rfl hf
  all_goals exact complete_respondsOnce d rfl rfl hf

/-- A command answers one next state, with one response, when its body does so with FAULT = 0 (R70, R206). -/
theorem acceptCommand_respondsOnce {body : State → State} {s : State}
    (hb : s.fault = false → RespondsOnce s (body s)) :
    ∃ t, acceptCommand body s = .next t ∧ RespondsOnce s t := by
  cases hf : s.fault with
  | true => exact ⟨_, acceptCommand_of_faulted hf, refuseFaulted_respondsOnce hf⟩
  | false => exact ⟨_, acceptCommand_of_running hf, hb hf⟩

/-- A pending word is taken and answered once, whether it is a command or is rejected (R42, R69). -/
theorem step_respondsOnce {s : State} {w : CmdWord} {rest : List HostEvent} (hp : s.pending = .command w :: rest) :
    ∃ t, step s = .next t ∧ RespondsOnce { s with pending := rest } t := by
  cases hd : decode w with
  | ok i =>
    obtain ⟨body, e, hbody⟩ := exec_body i
    rw [step_of_decoded hp hd, e]
    exact acceptCommand_respondsOnce fun hf => (hbody _).respondsOnce hf
  | error err =>
    rw [step_of_rejected hp hd]
    exact acceptCommand_respondsOnce fun _ => raiseFault_respondsOnce _ _

/-- Settles O11: a refusal, a fault entry and a command's effect each give one response of the required form. -/
theorem oneResponsePerCommand : Obligations.OneResponsePerCommand := by
  unfold Obligations.OneResponsePerCommand
  intro s w rest hp
  obtain ⟨t, ht, hpending, r, hr⟩ := step_respondsOnce hp
  exact ⟨t, r, ht, hpending, hr⟩

/-! The S-boxes by flat address (R47). -/

/-- In the rows of a table put one after another, the entry of `row` and `col` stands at the address `row ++ col`. -/
theorem flatten_getElem?_append (t : SBoxTable) (row col : BitVec 2) :
    t.flatten.toList[(row ++ col).toNat]? = some (tableRead t row col) := by
  have hcol : col.toNat < 4 := col.isLt
  have haddr : (row ++ col).toNat = 4 * row.toNat + col.toNat := by
    rw [BitVec.toNat_append, ← Nat.shiftLeft_add_eq_or_of_lt col.isLt, Nat.shiftLeft_eq, Nat.mul_comm]
  have hlt : 4 * row.toNat + col.toNat < 4 * 4 := haddr ▸ (row ++ col).isLt
  have hdiv : (4 * row.toNat + col.toNat) / 4 = row.toNat := by omega
  have hmod : (4 * row.toNat + col.toNat) % 4 = col.toNat := by omega
  rw [Vector.getElem?_toList, haddr, Vector.getElem?_flatten, dif_pos hlt]
  simp [tableRead, hdiv, hmod]

theorem s0Table_flatten : s0Table.flatten.toList =
    [1#2, 0#2, 3#2, 2#2, 3#2, 2#2, 1#2, 0#2, 0#2, 2#2, 1#2, 3#2, 3#2, 1#2, 3#2, 1#2] := by simp [s0Table]

theorem s1Table_flatten : s1Table.flatten.toList =
    [1#2, 1#2, 2#2, 3#2, 2#2, 0#2, 1#2, 3#2, 3#2, 0#2, 1#2, 0#2, 2#2, 1#2, 0#2, 3#2] := by simp [s1Table]

/-- Settles O38: the two lists are the rows of S0 and of S1 put one after another. -/
theorem flattenedSboxContents : Obligations.FlattenedSboxContents := by
  unfold Obligations.FlattenedSboxContents
  intro row col
  rw [← s0Table_flatten, ← s1Table_flatten]
  exact ⟨flatten_getElem?_append s0Table row col, flatten_getElem?_append s1Table row col⟩

end Sys2Proof.Machine
end

section
/-! PROOF. Encoding (30_encoding.md): a word as its three fields, the opcode map and the decoder over them, the encoder's
round trip, the assembler, and the faults of rejected words. -/

namespace Sys2Proof

/-! A word as its fields (R61). -/

namespace Machine

@[simp] theorem wordOf_fields (w : CmdWord) : wordOf (opField w) (ksField w) (dataField w) = w := by
  refine BitVec.eq_of_getLsbD_eq fun n hn => ?_
  rw [wordOf_getLsbD]
  rcases Nat.lt_trichotomy n 10 with h | rfl | h
  · simp [dataField, h]
  · simp [ksField]
  · simp [opField, show ¬ n < 10 by omega, show n ≠ 10 by omega, show n - 11 < 5 by omega,
      show 11 + (n - 11) = n by omega]

/-- Words are equal exactly when their fields are. -/
theorem wordOf_inj {op op' : BitVec 5} {ks ks' : Bool} {d d' : Data} :
    wordOf op ks d = wordOf op' ks' d' ↔ op = op' ∧ ks = ks' ∧ d = d' := by
  refine ⟨fun h => ⟨?_, ?_, ?_⟩, by rintro ⟨rfl, rfl, rfl⟩; rfl⟩
  · simpa using congrArg opField h
  · simpa using congrArg ksField h
  · simpa using congrArg dataField h

/-- AND works on each field by itself. -/
theorem wordOf_and (op op' : BitVec 5) (ks ks' : Bool) (d d' : Data) :
    wordOf op ks d &&& wordOf op' ks' d' = wordOf (op &&& op') (ks && ks') (d &&& d') := by
  refine BitVec.eq_of_getLsbD_eq fun n _ => ?_
  simp only [BitVec.getLsbD_and, wordOf_getLsbD]
  split
  · rfl
  · split <;> rfl

/-- The word as a number: OP at 2^11, KS at 2^10, DATA at the bottom (R61). -/
theorem wordOf_toNat (op : BitVec 5) (ks : Bool) (d : Data) :
    (wordOf op ks d).toNat = 0x0800 * op.toNat + (if ks then 0x0400 else 0) + d.toNat := by
  have hd : d.toNat < 2 ^ 10 := d.isLt
  have hk : ks.toNat < 2 ^ 1 := ks.toNat_lt
  rw [wordOf, BitVec.toNat_append, BitVec.toNat_append, BitVec.toNat_ofBool,
    ← Nat.shiftLeft_add_eq_or_of_lt hd, ← Nat.shiftLeft_add_eq_or_of_lt hk, Nat.shiftLeft_eq, Nat.shiftLeft_eq]
  cases ks <;> simp <;> omega

/-- An operand of a width up to 10 is the same number in DATA. -/
theorem zext10_toNat {n : Nat} (hn : n ≤ 10) (v : BitVec n) : (zext10 v).toNat = v.toNat :=
  BitVec.toNat_setWidth_of_le hn

end Machine

open Machine

/-! The opcode map (R65, R66) and what a command's arguments are put into (R62, R64). -/

theorem ofOpcode_eq_some_iff {op : BitVec 5} {m : Mnemonic} : Mnemonic.ofOpcode op = some m ↔ op = m.opcode :=
  ⟨fun h => (opcode_of_ofOpcode h).symm, fun h => h ▸ ofOpcode_opcode m⟩

/-- The reserved opcodes are the ones that R66 lists. -/
theorem ofOpcode_eq_none_iff (op : BitVec 5) :
    Mnemonic.ofOpcode op = none ↔
      op ∈ [0x00#5, 0x05#5, 0x06#5, 0x07#5, 0x0A#5, 0x0B#5, 0x0C#5, 0x0D#5, 0x0E#5, 0x0F#5, 0x1B#5, 0x1C#5, 0x1D#5,
        0x1E#5, 0x1F#5] := by
  revert op
  decide

/-- The opcodes assigned with a D format are the 13 of R67. -/
theorem ofOpcode_dFormat_iff (op : BitVec 5) :
    (∃ m, Mnemonic.ofOpcode op = some m ∧ usesKs (formatOf m) = false) ↔
      op ∈ [0x01#5, 0x03#5, 0x08#5, 0x09#5, 0x10#5, 0x11#5, 0x12#5, 0x13#5, 0x14#5, 0x15#5, 0x16#5, 0x17#5,
        0x18#5] := by
  rw [← Option.map_eq_some_iff (f := fun m => usesKs (formatOf m))]
  revert op
  decide

@[simp] theorem mnemonic_build (m : Mnemonic) (sel : SubkeySel) (d : Data) : (m.build sel d).mnemonic = m := by
  cases m <;> rfl

/-- Any instruction is what its command builds from the fields of its word. -/
@[simp] theorem build_fields (i : Instr) : i.mnemonic.build (selOfKs i.ks) i.dataBits = i := by
  cases i <;> simp [Instr.mnemonic, Instr.ks, Instr.dataBits, Mnemonic.build]

/-- An instruction is fixed by its command, its KS and its operand. -/
theorem Instr.eq_of_fields_eq {i j : Instr} (hm : i.mnemonic = j.mnemonic) (hk : i.ks = j.ks)
    (hd : i.dataBits = j.dataBits) : i = j := by
  rw [← build_fields i, ← build_fields j, hm, hk, hd]

/-- KS is 0 in the word of a D-format command (R63). -/
theorem ks_of_dFormat {i : Instr} (h : usesKs (formatOf i.mnemonic) = false) : i.ks = false := by
  cases i
  case skld | skrd | frnd | fstep => nomatch h
  all_goals rfl

theorem selOfKs_ks_build {m : Mnemonic} (h : usesKs (formatOf m) = true) (sel : SubkeySel) (d : Data) :
    selOfKs (m.build sel d).ks = sel := by
  cases m
  case skld | skrd | frnd | fstep => exact selOfKs_ksOfSel sel
  all_goals nomatch h

theorem operandWidth_le (f : Format) : operandWidth f ≤ 10 := by cases f <;> decide

/-- The operand is DATA modulo 2^n, `n` the width of the command's format (R62). -/
theorem dataBits_build_toNat (m : Mnemonic) (sel : SubkeySel) (d : Data) :
    (m.build sel d).dataBits.toNat = d.toNat % 2 ^ operandWidth (formatOf m) := by
  have h4 : (zext10 (operand4 d)).toNat = d.toNat % 2 ^ 4 := by rw [zext10_toNat (by omega)]; simp [operand4]
  have h8 : (zext10 (operand8 d)).toNat = d.toNat % 2 ^ 8 := by rw [zext10_toNat (by omega)]; simp [operand8]
  cases m
  case keyclr | skrd => exact (Nat.mod_one _).symm
  case pep | pp4 | frnd => exact h4
  case keyld | pp10 | pls | pp8 => exact (Nat.mod_eq_of_lt d.isLt).symm
  all_goals exact h8

/-- What a command builds from DATA depends on the operand bits only (R62). -/
theorem build_eq_of_operand_eq {m : Mnemonic} {d d' : Data} (sel : SubkeySel)
    (h : d.toNat % 2 ^ operandWidth (formatOf m) = d'.toNat % 2 ^ operandWidth (formatOf m)) :
    m.build sel d = m.build sel d' := by
  refine Instr.eq_of_fields_eq (by simp) (by cases m <;> rfl) (BitVec.eq_of_toNat_eq ?_)
  rw [dataBits_build_toNat, dataBits_build_toNat, h]

/-! Decoding (R65 to R69) and its round trip. -/

theorem decode_eq_illegalOpcode {w : CmdWord} :
    decode w = .error .illegalOpcode ↔ Mnemonic.ofOpcode (opField w) = none := by
  cases hm : Mnemonic.ofOpcode (opField w) with
  | none => simp [decode, hm]
  | some m => cases hu : usesKs (formatOf m) <;> cases hk : ksField w <;> simp [decode, hm, hu, hk]

theorem decode_eq_reservedField {w : CmdWord} :
    decode w = .error .reservedField ↔
      (∃ m, Mnemonic.ofOpcode (opField w) = some m ∧ usesKs (formatOf m) = false) ∧ ksField w = true := by
  cases hm : Mnemonic.ofOpcode (opField w) with
  | none => simp [decode, hm]
  | some m => cases hu : usesKs (formatOf m) <;> cases hk : ksField w <;> simp [decode, hm, hu, hk]

/-- A word decodes to a given command exactly when it has that opcode and does not set a reserved KS (R65, R67). -/
theorem decodes_to_mnemonic_iff (w : CmdWord) (m : Mnemonic) :
    (∃ i, decode w = .ok i ∧ i.mnemonic = m) ↔
      opField w = m.opcode ∧ (usesKs (formatOf m) = true ∨ ksField w = false) := by
  simp only [decode_eq_ok, ofOpcode_eq_some_iff]
  constructor
  · rintro ⟨i, ⟨m', hop, hks, rfl⟩, hm⟩
    obtain rfl : m' = m := by simpa using hm
    exact ⟨hop, hks⟩
  · rintro ⟨hop, hks⟩
    exact ⟨_, ⟨m, hop, hks, rfl⟩, mnemonic_build ..⟩

/-- The fields of an instruction's word are its opcode, its KS and its operand, so decoding rebuilds it (R73). -/
@[simp] theorem decode_encode (i : Instr) : decode (encode i) = .ok i := by
  obtain ⟨hop, hks, hdata⟩ := Laws.encode_fields i
  rw [decode_eq_ok, hop, hks, hdata]
  refine ⟨i.mnemonic, ofOpcode_opcode _, ?_, build_fields i⟩
  cases h : usesKs (formatOf i.mnemonic) with
  | true => exact .inl rfl
  | false => exact .inr (ks_of_dFormat h)

/-- Settles O1, by the fields of an instruction's word. -/
theorem encodeThenDecode : Obligations.EncodeThenDecode := by
  unfold Obligations.EncodeThenDecode
  exact decode_encode

/-- A row of the opcode map with the match and the mask that R65 derives from it: OP counts always, KS where it is
reserved, DATA never. -/
def opcodeRow (m : Mnemonic) : Mnemonic × CmdWord × CmdWord :=
  (m, wordOf m.opcode false 0#10, wordOf (BitVec.allOnes 5) (!usesKs (formatOf m)) 0#10)

/-- A word matches a row exactly when it has its opcode and does not set a reserved KS. -/
theorem and_mask_eq_match_iff (w : CmdWord) (m : Mnemonic) :
    w &&& (opcodeRow m).2.2 = (opcodeRow m).2.1 ↔
      opField w = m.opcode ∧ (usesKs (formatOf m) = true ∨ ksField w = false) := by
  have hand : w &&& (opcodeRow m).2.2 = wordOf (opField w) (ksField w && !usesKs (formatOf m)) 0#10 := by
    conv_lhs => rw [← wordOf_fields w, opcodeRow, wordOf_and]
    rw [BitVec.and_allOnes, BitVec.and_zero]
  rw [hand, opcodeRow, wordOf_inj]
  cases usesKs (formatOf m) <;> simp

/-- Settles O2: the listed rows are `opcodeRow` of the 17 commands, and both sides say the same of OP and KS. -/
theorem wordSelectsTableRow : Obligations.WordSelectsTableRow := by
  unfold Obligations.WordSelectsTableRow
  intro w m mtch mask hrow
  obtain ⟨m, -, hm⟩ : ∃ m' ∈ Mnemonic.all, opcodeRow m' = (m, mtch, mask) := List.mem_map.mp hrow
  cases hm
  rw [decodes_to_mnemonic_iff]
  exact (and_mask_eq_match_iff w m).symm

/-! The operand and the ignored bits (R62). -/

theorem dataField_toNat_mod (w : CmdWord) {n : Nat} (hn : n ≤ 10) :
    (dataField w).toNat % 2 ^ n = w.toNat % 2 ^ n := by
  simp only [dataField, BitVec.extractLsb'_toNat, Nat.shiftRight_zero]
  exact Nat.mod_mod_of_dvd _ (pow_dvd_pow 2 hn)

/-- Numbers modulo 2^n agree when their low `n` bits do. -/
theorem toNat_mod_eq_of_getLsbD_eq {k n : Nat} {v v' : BitVec k} (h : ∀ j < n, v'.getLsbD j = v.getLsbD j) :
    v'.toNat % 2 ^ n = v.toNat % 2 ^ n := by
  refine Nat.eq_of_testBit_eq fun j => ?_
  by_cases hj : j < n
  · simpa [Nat.testBit_mod_two_pow, hj, BitVec.testBit_toNat] using h j hj
  · simp [Nat.testBit_mod_two_pow, hj]

/-- Settles O3: the operand is DATA modulo 2^n, and OP, KS and the operand bits are all that decoding reads. -/
theorem highDataBitsIgnored : Obligations.HighDataBitsIgnored := by
  unfold Obligations.HighDataBitsIgnored
  intro w i hw
  obtain ⟨m, hop, hks, rfl⟩ := decode_eq_ok.mp hw
  rw [mnemonic_build]
  have hwidth := operandWidth_le (formatOf m)
  refine ⟨by rw [dataBits_build_toNat, dataField_toNat_mod w hwidth], fun w' hhigh hlow => ?_⟩
  have hbit (n : Nat) : w'.getLsbD (10 + n) = w.getLsbD (10 + n) := by
    simpa using congrArg (BitVec.getLsbD · n) hhigh
  have hop' : opField w' = opField w := by
    ext n hn
    simpa [opField, ← Nat.add_assoc] using hbit (1 + n)
  have hks' : ksField w' = ksField w := hbit 0
  refine decode_eq_ok.mpr ⟨m, hop' ▸ hop, hks' ▸ hks, ?_⟩
  rw [hks']
  apply build_eq_of_operand_eq
  rw [dataField_toNat_mod w' hwidth, dataField_toNat_mod w hwidth]
  exact toNat_mod_eq_of_getLsbD_eq hlow

/-! The assembler (R73). -/

theorem wellFormed_iff (l : AsmLine) :
    l.wellFormed = true ↔
      l.ksel.isSome = usesKs (formatOf l.mnemonic) ∧
        l.data.isSome = (operandWidth (formatOf l.mnemonic) != 0) ∧
        ∀ d ∈ l.data, d < 2 ^ operandWidth (formatOf l.mnemonic) := by
  have hfits : l.dataFits = true ↔ ∀ d ∈ l.data, d < 2 ^ operandWidth (formatOf l.mnemonic) := by
    unfold AsmLine.dataFits
    split <;> simp [*]
  rw [AsmLine.wellFormed, Bool.and_eq_true, Bool.and_eq_true, hfits, and_assoc, AsmLine.kselFits, AsmLine.dataStands,
    beq_iff_eq, beq_iff_eq]

/-- The printed line by format: a register where KS is used, a number where there is an operand. -/
theorem lineOf_eq (i : Instr) :
    lineOf i = ⟨i.mnemonic, if usesKs (formatOf i.mnemonic) then some (selOfKs i.ks) else none,
      if operandWidth (formatOf i.mnemonic) = 0 then none else some i.dataBits.toNat⟩ := by
  cases i <;>
    simp [lineOf, Instr.mnemonic, Instr.ks, Instr.dataBits, formatOf, usesKs, operandWidth, zext10_toNat]

theorem dataBits_lt (i : Instr) : i.dataBits.toNat < 2 ^ operandWidth (formatOf i.mnemonic) := by
  have h := dataBits_build_toNat i.mnemonic (selOfKs i.ks) i.dataBits
  rw [build_fields] at h
  exact h ▸ Nat.mod_lt _ (by positivity)

open Laws in
/-- Every instruction prints as a line the assembler accepts: the model's own lemma for each command. -/
theorem lineOf_wellFormed (i : Instr) : (lineOf i).wellFormed = true := by
  cases i
  exacts [PrintsWellFormed.keyld _, PrintsWellFormed.skld _ _, PrintsWellFormed.keyclr, PrintsWellFormed.skrd _,
    PrintsWellFormed.enc _, PrintsWellFormed.dec _, PrintsWellFormed.pip _, PrintsWellFormed.pipi _,
    PrintsWellFormed.pp10 _, PrintsWellFormed.pls _, PrintsWellFormed.pp8 _, PrintsWellFormed.pep _,
    PrintsWellFormed.pp4 _, PrintsWellFormed.psw _, PrintsWellFormed.sbox _, PrintsWellFormed.frnd _ _,
    PrintsWellFormed.fstep _ _]

/-- Reading a printed line gives the instruction back. -/
theorem instrOfLine_lineOf (i : Instr) : instrOfLine (lineOf i) = some i := by
  have hksel : (lineOf i).ksel.getD .k1 = selOfKs i.ks := by
    cases h : usesKs (formatOf i.mnemonic)
    · simp [lineOf_eq, h, ks_of_dFormat h, selOfKs]
    · simp [lineOf_eq, h]
  have hdata : BitVec.ofNat 10 ((lineOf i).data.getD 0) = i.dataBits := by
    have hlt := dataBits_lt i
    by_cases h : operandWidth (formatOf i.mnemonic) = 0
    · have hzero : i.dataBits.toNat = 0 := by simpa [h] using hlt
      simp [lineOf_eq, h, BitVec.eq_of_toNat_eq (y := 0#10) hzero]
    · simp [lineOf_eq, h]
  have hm : (lineOf i).mnemonic = i.mnemonic := by rw [lineOf_eq]
  rw [instrOfLine, if_pos (lineOf_wellFormed i), hm, hksel, hdata, build_fields]

/-- An instruction read from a line prints as that line. -/
theorem lineOf_of_instrOfLine {l : AsmLine} {i : Instr} (h : instrOfLine l = some i) : lineOf i = l := by
  unfold instrOfLine at h
  split at h
  next hwf =>
    obtain rfl := Option.some.inj h
    obtain ⟨hksel, hstands, hfits⟩ := (wellFormed_iff l).mp hwf
    obtain ⟨m, ksel, data⟩ := l
    rw [lineOf_eq, mnemonic_build, dataBits_build_toNat, AsmLine.mk.injEq]
    refine ⟨rfl, ?_, ?_⟩
    · cases ksel with
      | none => simp [← hksel]
      | some sel =>
        have hks : usesKs (formatOf m) = true := hksel.symm
        simp [hks, selOfKs_ks_build hks]
    · cases data with
      | none => simpa using hstands
      | some d =>
        have hd : d < 2 ^ operandWidth (formatOf m) := hfits d rfl
        have hd10 : d < 2 ^ 10 := hd.trans_le (Nat.pow_le_pow_right (by omega) (operandWidth_le _))
        have hwidth : operandWidth (formatOf m) ≠ 0 := by simpa using hstands
        have hmod : d % 2 ^ 10 % 2 ^ operandWidth (formatOf m) = d := by
          rw [Nat.mod_eq_of_lt hd10, Nat.mod_eq_of_lt hd]
        simpa [hwidth] using hmod
  next => simp at h

theorem assemble_lineOf (i : Instr) : assemble (lineOf i) = some (encode i) := by
  rw [assemble, instrOfLine_lineOf, Option.map_some]

theorem disassemble_encode (i : Instr) : disassemble (encode i) = some (lineOf i) := by
  rw [disassemble, decode_encode]

theorem assemble_eq_none_iff (l : AsmLine) : assemble l = none ↔ l.wellFormed = false := by
  simp [assemble, instrOfLine]

/-- Settles O6: printing and reading a line invert each other, as do encoding and decoding. -/
theorem assembleAndDisassemble : Obligations.AssembleAndDisassemble := by
  unfold Obligations.AssembleAndDisassemble
  refine ⟨fun i => ⟨assemble_lineOf i, disassemble_encode i⟩, assemble_eq_none_iff, fun l w h => ?_, by decide⟩
  obtain ⟨i, hi, rfl⟩ := Option.map_eq_some_iff.mp h
  rw [disassemble_encode, lineOf_of_instrOfLine hi]

/-! The step of every word (R69, R70) and of the words that are no command (R66, R67). -/

namespace Machine

theorem acceptCommand_answers (body : State → State) (s : State) : ∃ t, acceptCommand body s = .next t := ⟨_, rfl⟩

/-- Settles O10, by the cases of a step: waiting and reset answer at once, commands and rejected words through
`acceptCommand`. -/
theorem everyStepAnswers : Obligations.EveryStepAnswers := by
  unfold Obligations.EveryStepAnswers
  intro s
  rcases step_cases s with ⟨-, e⟩ | ⟨rest, -, e⟩ | ⟨w, rest, i, -, -, e⟩ | ⟨w, rest, err, -, -, e⟩ <;> rw [e]
  case inl | inr.inl => exact ⟨_, rfl⟩
  case inr.inr.inl =>
    obtain ⟨body, hbody, -⟩ := exec_body i
    exact hbody ▸ acceptCommand_answers body _
  case inr.inr.inr => exact acceptCommand_answers _ _

/-- With FAULT = 0 a rejected word is taken and raises its fault (R66, R67, R204). -/
theorem step_of_rejected_running {s : State} {w : CmdWord} {rest : List HostEvent} {e : DecodeError}
    (hf : s.fault = false) (hp : s.pending = .command w :: rest) (hd : decode w = .error e) :
    step s = .next (raiseFault (causeOfDecodeError e) { s with pending := rest }) :=
  (step_of_rejected hp hd).trans (acceptCommand_of_running hf)

/-- Settles O16: the listed opcodes are the ones the opcode map does not assign. -/
theorem reservedOpcodeFaults : Obligations.ReservedOpcodeFaults := by
  unfold Obligations.ReservedOpcodeFaults
  refine ⟨fun s w rest hf hp hop => ?_, rfl, rfl⟩
  have hd : decode w = .error .illegalOpcode := decode_eq_illegalOpcode.mpr ((ofOpcode_eq_none_iff _).mpr hop)
  exact step_of_rejected_running hf hp hd

/-- Settles O17: the listed opcodes are the ones assigned with a D format, in which KS = 1 is rejected. -/
theorem reservedFieldFaults : Obligations.ReservedFieldFaults := by
  unfold Obligations.ReservedFieldFaults
  intro s w rest hf hp hop hks
  have hd : decode w = .error .reservedField := decode_eq_reservedField.mpr ⟨(ofOpcode_dFormat_iff _).mpr hop, hks⟩
  exact step_of_rejected_running hf hp hd

end Machine

/-! The words as numbers (R61, R65) and the listed words. -/

theorem encode_toNat (i : Instr) :
    (encode i).toNat = 0x0800 * i.mnemonic.opcode.toNat + (if i.ks then 0x0400 else 0) + i.dataBits.toNat :=
  wordOf_toNat ..

/-- Settles O4, by the number of a word put together from its fields. -/
theorem wordOfEachCommand : Obligations.WordOfEachCommand := by
  unfold Obligations.WordOfEachCommand
  simp [encode_toNat, Instr.mnemonic, Mnemonic.opcode, Instr.ks, ksOfSel, Instr.dataBits, zext10_toNat]

/-- Settles O5, by evaluating the decoder on each word. -/
theorem decodeOfListedWords : Obligations.DecodeOfListedWords := by
  unfold Obligations.DecodeOfListedWords
  decide

end Sys2Proof
end

section
/-! PROOF. The permutation unit (40_permutation_unit.md): what each table gives written out bit by bit, the commands that
respond with it, and the laws of `permute` and of the tables. -/

namespace Sys2Proof.Machine

/-! A permuted value bit by bit (R100). -/

/-- The bits of `v` that a list names, the first of them the least significant: `permute` by the list, with its result
written out as the spec does. -/
def selectedBits {win : Nat} (v : BitVec win) : (l : List (Fin win)) → BitVec l.length
  | [] => 0#0
  | [j] => BitVec.ofBool v[j]
  | j :: k :: l => selectedBits v (k :: l) ++ BitVec.ofBool v[j]

theorem selectedBits_getElem {win : Nat} (v : BitVec win) (l : List (Fin win)) (i : Nat) (hi : i < l.length) :
    (selectedBits v l)[i] = v[l[i]] := by
  induction l using selectedBits.induct generalizing i with
  | case1 => nomatch hi
  | case2 j =>
    obtain rfl : i = 0 := by simpa using hi
    simp [selectedBits]
  | case3 j k l ih =>
    rw [selectedBits, BitVec.getElem_append (m := 1) hi]
    cases i with
    | zero => simp
    | succ i => simp [ih]

/-- `permute` by a table written as a list of source bits. -/
theorem permute_eq_selectedBits {win : Nat} (v : BitVec win) (l : List (Fin win)) :
    permute v ⟨l.toArray, rfl⟩ = selectedBits v l := by
  ext i hi
  rw [permute_getElem]
  exact (selectedBits_getElem v l i hi).symm

theorem ip_eq_bits (v : Block) :
    ip v = BitVec.ofBool v[6] ++ BitVec.ofBool v[2] ++ BitVec.ofBool v[5] ++ BitVec.ofBool v[7] ++
      BitVec.ofBool v[4] ++ BitVec.ofBool v[0] ++ BitVec.ofBool v[3] ++ BitVec.ofBool v[1] :=
  permute_eq_selectedBits v _

theorem ipi_eq_bits (v : Block) :
    ipi v = BitVec.ofBool v[4] ++ BitVec.ofBool v[7] ++ BitVec.ofBool v[5] ++ BitVec.ofBool v[3] ++
      BitVec.ofBool v[1] ++ BitVec.ofBool v[6] ++ BitVec.ofBool v[0] ++ BitVec.ofBool v[2] :=
  permute_eq_selectedBits v _

theorem p10_eq_bits (v : BitVec 10) :
    p10 v = BitVec.ofBool v[7] ++ BitVec.ofBool v[5] ++ BitVec.ofBool v[8] ++ BitVec.ofBool v[3] ++
      BitVec.ofBool v[6] ++ BitVec.ofBool v[0] ++ BitVec.ofBool v[9] ++ BitVec.ofBool v[1] ++ BitVec.ofBool v[2] ++
      BitVec.ofBool v[4] :=
  permute_eq_selectedBits v _

theorem p8_eq_bits (v : BitVec 10) :
    p8 v = BitVec.ofBool v[4] ++ BitVec.ofBool v[7] ++ BitVec.ofBool v[3] ++ BitVec.ofBool v[6] ++
      BitVec.ofBool v[2] ++ BitVec.ofBool v[5] ++ BitVec.ofBool v[0] ++ BitVec.ofBool v[1] :=
  permute_eq_selectedBits v _

theorem ep_eq_bits (v : Half) :
    ep v = BitVec.ofBool v[0] ++ BitVec.ofBool v[3] ++ BitVec.ofBool v[2] ++ BitVec.ofBool v[1] ++
      BitVec.ofBool v[2] ++ BitVec.ofBool v[1] ++ BitVec.ofBool v[0] ++ BitVec.ofBool v[3] :=
  permute_eq_selectedBits v _

theorem p4_eq_bits (v : Half) :
    p4 v = BitVec.ofBool v[2] ++ BitVec.ofBool v[0] ++ BitVec.ofBool v[1] ++ BitVec.ofBool v[3] :=
  permute_eq_selectedBits v _

/-- SW exchanges the halves (R108). -/
theorem sw_eq_halves (v : Block) : sw v = v.extractLsb' 0 4 ++ v.extractLsb' 4 4 := by
  refine BitVec.eq_of_getLsbD_eq fun i hi => ?_
  rw [BitVec.getLsbD_append]
  interval_cases i <;> simp [sw, swTable]

/-- LS rotates each 5-bit half left by one place (R104). -/
theorem ls_eq_rotated_halves (v : BitVec 10) :
    ls v = v.extractLsb' 5 4 ++ BitVec.ofBool v[9] ++ (v.extractLsb' 0 4 ++ BitVec.ofBool v[4]) := by
  refine BitVec.eq_of_getLsbD_eq fun i hi => ?_
  simp only [BitVec.getLsbD_append]
  interval_cases i <;> simp [ls, lsTable]

/-! The commands (R112 to R119): each completes with its table's result, widened to the response's data (R71). -/

theorem zext10_of_width8 (v : BitVec 8) : zext10 v = 0b00#2 ++ v := BitVec.setWidth_eq_append (by omega)
theorem zext10_of_width4 (v : BitVec 4) : zext10 v = 0b000000#6 ++ v := BitVec.setWidth_eq_append (by omega)
theorem zext10_of_width10 (v : BitVec 10) : zext10 v = v := BitVec.setWidth_eq v

/-- Settles O30, by the results of IP, IPI and SW written out. -/
theorem blockPermutationCommands : Obligations.BlockPermutationCommands := by
  unfold Obligations.BlockPermutationCommands
  intro v s hs
  rw [exec_pip hs, exec_pipi hs, exec_psw hs, zext10_of_width8, zext10_of_width8, zext10_of_width8, ip_eq_bits,
    ipi_eq_bits, sw_eq_halves]
  exact ⟨rfl, rfl, rfl⟩

/-- Settles O31, by the results of P10, LS and P8 written out. -/
theorem keyPermutationCommands : Obligations.KeyPermutationCommands := by
  unfold Obligations.KeyPermutationCommands
  intro v s hs
  rw [exec_pp10 hs, exec_pls hs, exec_pp8 hs, zext10_of_width10, zext10_of_width10, zext10_of_width8, p10_eq_bits,
    ls_eq_rotated_halves, p8_eq_bits]
  exact ⟨rfl, rfl, rfl⟩

/-- Settles O32, by the results of EP and P4 written out. -/
theorem roundPermutationCommands : Obligations.RoundPermutationCommands := by
  unfold Obligations.RoundPermutationCommands
  intro v s hs
  rw [exec_pep hs, exec_pp4 hs, zext10_of_width8, zext10_of_width4, ep_eq_bits, p4_eq_bits]
  exact ⟨rfl, rfl⟩

/-! The laws of every table (R110, R111). -/

theorem permute_xor {win m : Nat} (t : PermTable win m) (a b : BitVec win) :
    permute (a ^^^ b) t = permute a t ^^^ permute b t := by
  ext i hi
  simp only [permute_getElem, BitVec.getElem_xor]

theorem permute_zero {win m : Nat} (t : PermTable win m) : permute (0#win) t = 0#m := by
  ext i hi
  simp only [permute_getElem, BitVec.getElem_zero]

theorem permute_allOnes {win m : Nat} (t : PermTable win m) :
    permute (BitVec.allOnes win) t = BitVec.allOnes m := by
  ext i hi
  simp only [permute_getElem, BitVec.getElem_allOnes]

/-- A table `u` that leads back to every index through `t` undoes `t`. -/
theorem permute_leftInverse {win m : Nat} {t : PermTable win m} {u : PermTable m win} (h : ∀ i : Fin win, t[u[i]] = i)
    (v : BitVec win) : permute (permute v t) u = v :=
  (permute_permute (Vector.ofFn id) (fun i => by simpa using (h i).symm) v).trans (permute_identity (by simp) v)

/-- A table that lists every source bit loses none. -/
theorem permute_injective {win m : Nat} {t : PermTable win m} (h : ∀ j : Fin win, ∃ i : Fin m, t[i] = j) :
    Function.Injective (permute · t) := by
  intro v w hvw
  ext j hj
  obtain ⟨i, hi⟩ := h ⟨j, hj⟩
  have hij : t[i.val] = ⟨j, hj⟩ := hi
  have hbit : (permute v t)[i] = (permute w t)[i] := congrArg (·[i]) hvw
  simpa [hij] using hbit

/-- A table that lists every source bit, and has no room to repeat one, is a bijection. -/
theorem permute_bijective {n : Nat} {t : PermTable n n} (h : ∀ j : Fin n, ∃ i : Fin n, t[i] = j) :
    Function.Bijective (permute · t) := Finite.injective_iff_bijective.mp (permute_injective h)

/-- Settles O37, bit by bit. -/
theorem permuteDistributesOverXor : Obligations.PermuteDistributesOverXor := by
  unfold Obligations.PermuteDistributesOverXor
  intro _ _
  exact permute_xor

/-! The laws of the constant tables (R110). -/

theorem ipi_ip (v : Block) : ipi (ip v) = v := permute_leftInverse (by decide) v

theorem ip_ipi (v : Block) : ip (ipi v) = v := permute_leftInverse (by decide) v

theorem sw_sw (v : Block) : sw (sw v) = v := permute_leftInverse (by decide) v

/-- Two LS rotate each half by two places. -/
theorem ls_ls (v : BitVec 10) : ls (ls v) = permute v #v[3, 4, 0, 1, 2, 8, 9, 5, 6, 7] :=
  permute_permute _ (by decide) v

/-- Four LS rotate each half left by four places, and the fifth undoes that: a half has five. -/
theorem ls_five_times (v : BitVec 10) : ls (ls (ls (ls (ls v)))) = v := by
  rw [ls_ls, ls_ls, permute_permute #v[1, 2, 3, 4, 0, 6, 7, 8, 9, 5] (by decide)]
  exact permute_leftInverse (by decide) v

/-- P8 drops bits 9 and 8 (R105), so setting bit 8 changes nothing. -/
theorem p8_not_injective : ¬ Function.Injective p8 := by
  intro h
  have hdropped : p8 0x100#10 = p8 0x000#10 := by decide
  exact absurd (h hdropped) (by decide)

/-- EP repeats each bit of its operand (R106). -/
theorem ep_repeated_bits (v : Half) :
    (ep v)[1] = (ep v)[7] ∧ (ep v)[2] = (ep v)[4] ∧ (ep v)[3] = (ep v)[5] ∧ (ep v)[0] = (ep v)[6] := by
  simp [ep, epTable]

/-- No result of EP differs in bits 1 and 7. -/
theorem ep_not_surjective : ¬ Function.Surjective ep := by
  intro h
  obtain ⟨v, hv⟩ := h 0x02#8
  have hbits : (ep v)[1] = (ep v)[7] := (ep_repeated_bits v).left
  rw [hv] at hbits
  exact absurd hbits (by decide)

/-- Settles O36, law by law: the inverses, the rotations, the tables that list every source bit, the two that are no
bijections, and the two constant values. -/
theorem permutationTableLaws : Obligations.PermutationTableLaws := by
  unfold Obligations.PermutationTableLaws
  refine ⟨fun v => ⟨ipi_ip v, ip_ipi v⟩, sw_sw, fun v => ⟨ls_five_times v, ls_ls v⟩, ⟨?_, ?_, ?_, ?_, ?_, ?_⟩,
    p8_not_injective, ep_not_surjective, ep_repeated_bits, fun _ _ t => ⟨permute_zero t, permute_allOnes t⟩⟩
  all_goals exact permute_bijective (by decide)

end Sys2Proof.Machine
end

section
/-! PROOF. The S-box unit (41_sbox_unit.md): each table read by the group it substitutes, and the command SBOX. -/

namespace Sys2Proof.Machine

/-! The 16 rows of R135, listed by the number of the group. -/

theorem s0Table_byGroup (g : BitVec 4) :
    [1#2, 3#2, 0#2, 2#2, 3#2, 1#2, 2#2, 0#2, 0#2, 3#2, 2#2, 1#2, 1#2, 3#2, 3#2, 1#2][g.toNat]? =
      some (sboxGroup sourceSBoxes s0Table g) := by
  revert g
  decide

theorem s1Table_byGroup (g : BitVec 4) :
    [1#2, 2#2, 1#2, 0#2, 2#2, 1#2, 3#2, 3#2, 3#2, 2#2, 0#2, 1#2, 1#2, 0#2, 0#2, 3#2][g.toNat]? =
      some (sboxGroup sourceSBoxes s1Table g) := by
  revert g
  decide

/-- The engine's S-boxes substitute the high group through S0 and the low group through S1 (R132). -/
theorem sbox_eq_groups (x : BitVec 8) :
    sbox x = sboxGroup sourceSBoxes s0Table (x.extractLsb' 4 4) ++
      sboxGroup sourceSBoxes s1Table (x.extractLsb' 0 4) := rfl

/-- Settles O33: the listed values are what the tables give for the two groups. -/
theorem sboxRespondsByGroup : Obligations.SboxRespondsByGroup := by
  unfold Obligations.SboxRespondsByGroup
  intro x s s0 s1 hs h0 h1
  have hs0 : sboxGroup sourceSBoxes s0Table (x.extractLsb' 4 4) = s0 :=
    Option.some.inj ((s0Table_byGroup _).symm.trans h0)
  have hs1 : sboxGroup sourceSBoxes s1Table (x.extractLsb' 0 4) = s1 :=
    Option.some.inj ((s1Table_byGroup _).symm.trans h1)
  rw [exec_sbox hs, zext10_of_width4, sbox_eq_groups, hs0, hs1]
  rfl

end Sys2Proof.Machine
end

section
/-! PROOF. The round function and the Feistel step (42_round_function.md): the step undone by itself, what F depends on,
and the commands FRND and FSTEP. -/

namespace Sys2Proof.Machine

/-! The Feistel step undone by itself (R144). -/

/-- The second step computes the same value of F, since the right half has passed unchanged, and takes it out again. -/
theorem feistelWith_involutive (c : SBoxConfig) (k : Subkey) :
    Function.Involutive (fun b : Block => feistelWith c b k) := by
  intro b
  calc feistelWith c (feistelWith c b k) k
      = leftHalf (feistelWith c (feistelWith c b k) k) ++ rightHalf (feistelWith c (feistelWith c b k) k) :=
        (halves_append _).symm
    _ = (leftHalf b ^^^ roundWith c (rightHalf b) k ^^^ roundWith c (rightHalf b) k) ++ rightHalf b := by
        simp only [leftHalf_feistelWith, rightHalf_feistelWith]
    _ = leftHalf b ++ rightHalf b := by rw [BitVec.xor_assoc, BitVec.xor_self, BitVec.xor_zero]
    _ = b := halves_append b

/-- Settles O40, by the involution: a function that undoes itself is a bijection. -/
theorem feistelStepIsInvolution : Obligations.FeistelStepIsInvolution := by
  unfold Obligations.FeistelStepIsInvolution
  exact fun c k => ⟨feistelWith_involutive c k, (feistelWith_involutive c k).bijective⟩

/-! The commands FRND and FSTEP with their subkey valid (R142, R145). -/

theorem exec_frnd_of_valid {s : State} {sel : SubkeySel} (hs : s.fault = false) (hv : s.valid sel = true) (r : Half) :
    exec (.frnd sel r) s = .next (complete (0b000000#6 ++ roundF r (s.subkey sel)) s) := by
  rw [exec_frnd hs, withSubkey_of_valid hv, zext10_of_width4]

theorem exec_fstep_of_valid {s : State} {sel : SubkeySel} (hs : s.fault = false) (hv : s.valid sel = true) (b : Block) :
    exec (.fstep sel b) s = .next (complete (0b00#2 ++ feistel b (s.subkey sel)) s) := by
  rw [exec_fstep hs, withSubkey_of_valid hv, zext10_of_width8]

/-- Settles O34: FRND completes with F of the selected subkey, which is `P4(SBox(EP(R) ^ K))` by R140. -/
theorem frndRespondsRoundFunction : Obligations.FrndRespondsRoundFunction := by
  unfold Obligations.FrndRespondsRoundFunction
  intro r s hs
  exact ⟨fun hv => exec_frnd_of_valid (sel := .k1) hs hv r, fun hv => exec_frnd_of_valid (sel := .k2) hs hv r⟩

/-- Settles O35: FSTEP completes with f of the selected subkey, which is `(L ^ F(R, K)) ++ R` by R143. -/
theorem fstepRespondsFeistelStep : Obligations.FstepRespondsFeistelStep := by
  unfold Obligations.FstepRespondsFeistelStep
  intro b s hs
  exact ⟨fun hv => exec_fstep_of_valid (sel := .k1) hs hv b, fun hv => exec_fstep_of_valid (sel := .k2) hs hv b⟩

/-! The values of the round function (R141). -/

/-- F depends on its arguments only through `EP(R) ^ K`, whatever the S-boxes contain, because EP takes zero to zero. -/
theorem roundWith_eq_zero_half (c : SBoxConfig) (r : Half) (k : Subkey) :
    roundWith c r k = roundWith c 0x0#4 (k ^^^ ep r) := by
  have hzero : ep 0x0#4 = 0x00#8 := permute_zero epTable
  rw [roundWith, roundWith, hzero, BitVec.zero_xor, BitVec.xor_comm k]

theorem roundF_subkey5F_values :
    (List.range 16).map (fun r => (roundF (BitVec.ofNat 4 r) 0x5F#8).toNat) =
      [0xE, 0x9, 0xD, 0xA, 0x6, 0xC, 0x1, 0xB, 0x9, 0xD, 0x8, 0x6, 0x7, 0xA, 0x4, 0x5] := by decide

/-- The half blocks 1 and 8 both give 9. -/
theorem roundF_subkey5F_not_injective : ¬ Function.Injective (fun r : Half => roundF r 0x5F#8) := by
  intro h
  have hsame : roundF 0x1#4 0x5F#8 = roundF 0x8#4 0x5F#8 := by decide
  exact absurd (h hsame) (by decide)

/-- Settles O39: the dependence on `EP(R) ^ K` for every argument, then the listed values by evaluation. -/
theorem roundFunctionCornerCases : Obligations.RoundFunctionCornerCases := by
  unfold Obligations.RoundFunctionCornerCases
  exact ⟨roundWith_eq_zero_half sourceSBoxes, by decide, roundF_subkey5F_values, roundF_subkey5F_not_injective⟩

end Sys2Proof.Machine
end

section
/-! PROOF. The key schedule (43_key_schedule.md): the schedule as bit selection from the master key, what that says
about the pairs it gives, and the commands over the subkey registers. -/

namespace Sys2Proof.Machine

/-! The schedule as bit selection (R152). -/

/-- The bits of the master key that K1 is made of (R152). -/
def subkey1Table : PermTable 10 8 := #v[4, 0, 7, 2, 6, 1, 3, 9]

/-- The bits of the master key that K2 is made of (R152). -/
def subkey2Table : PermTable 10 8 := #v[0, 9, 5, 4, 7, 2, 6, 1]

/-- P10, the rotations and P8 compose to one table for each subkey. -/
theorem keySchedule_eq_permute (k : MasterKey) : keySchedule k = (permute k subkey1Table, permute k subkey2Table) := by
  have hshifted1 : ls (p10 k) = permute k #v[0, 4, 2, 1, 9, 7, 6, 3, 8, 5] := permute_permute _ (by decide) k
  have hshifted2 : ls (ls (p10 k)) = permute k #v[9, 0, 4, 2, 1, 5, 7, 6, 3, 8] := by
    rw [hshifted1]
    exact permute_permute _ (by decide) k
  have h1 : p8 (ls (p10 k)) = permute k subkey1Table := by
    rw [hshifted1]
    exact permute_permute _ (by decide) k
  have h2 : p8 (ls (ls (p10 k))) = permute k subkey2Table := by
    rw [hshifted2]
    exact permute_permute _ (by decide) k
  exact Prod.ext h1 h2

theorem keySchedule_fst (k : MasterKey) : (keySchedule k).1 = permute k subkey1Table :=
  congrArg Prod.fst (keySchedule_eq_permute k)

theorem keySchedule_snd (k : MasterKey) : (keySchedule k).2 = permute k subkey2Table :=
  congrArg Prod.snd (keySchedule_eq_permute k)

theorem keySchedule_fst_eq_bits (k : MasterKey) :
    (keySchedule k).1 = BitVec.ofBool k[9] ++ BitVec.ofBool k[3] ++ BitVec.ofBool k[1] ++ BitVec.ofBool k[6] ++
      BitVec.ofBool k[2] ++ BitVec.ofBool k[7] ++ BitVec.ofBool k[0] ++ BitVec.ofBool k[4] :=
  (keySchedule_fst k).trans (permute_eq_selectedBits k _)

theorem keySchedule_snd_eq_bits (k : MasterKey) :
    (keySchedule k).2 = BitVec.ofBool k[1] ++ BitVec.ofBool k[6] ++ BitVec.ofBool k[2] ++ BitVec.ofBool k[7] ++
      BitVec.ofBool k[4] ++ BitVec.ofBool k[5] ++ BitVec.ofBool k[9] ++ BitVec.ofBool k[0] :=
  (keySchedule_snd k).trans (permute_eq_selectedBits k _)

/-! The commands over the subkey registers with FAULT = 0 (R153, R155, R157, R159). -/

/-- Settles O24: KEYLD loads the schedule, whose two subkeys are written out bit by bit. -/
theorem keyldLoadsBothSubkeys : Obligations.KeyldLoadsBothSubkeys := by
  unfold Obligations.KeyldLoadsBothSubkeys
  intro k s hs
  rw [exec_keyld hs, keySchedule_fst_eq_bits, keySchedule_snd_eq_bits]
  rfl

/-- Settles O25: SKLD completes over the state with the selected register loaded. -/
theorem skldLoadsSelectedSubkey : Obligations.SkldLoadsSelectedSubkey := by
  unfold Obligations.SkldLoadsSelectedSubkey
  exact fun v s hs => ⟨exec_skld hs .k1 v, exec_skld hs .k2 v⟩

/-- Settles O26: KEYCLR completes over the state with both registers cleared. -/
theorem keyclrClearsBothSubkeys : Obligations.KeyclrClearsBothSubkeys := by
  unfold Obligations.KeyclrClearsBothSubkeys
  exact fun s hs => exec_keyclr hs

theorem exec_skrd_of_valid {s : State} {sel : SubkeySel} (hs : s.fault = false) (hv : s.valid sel = true) :
    exec (.skrd sel) s = .next (complete (0b00#2 ++ s.subkey sel) s) := by
  rw [exec_skrd hs, withSubkey_of_valid hv, zext10_of_width8]

/-- Settles O27: SKRD completes with the selected register over the state unchanged. -/
theorem skrdRespondsSelectedSubkey : Obligations.SkrdRespondsSelectedSubkey := by
  unfold Obligations.SkrdRespondsSelectedSubkey
  intro s hs
  exact ⟨fun hv => exec_skrd_of_valid (sel := .k1) hs hv, fun hv => exec_skrd_of_valid (sel := .k2) hs hv⟩

/-- Settles O42: each command of a chain computes one operation of the schedule on the response before it, and SKRD
reads the register that KEYLD loaded with the result (R150). -/
theorem scheduleThroughPermutationUnit : Obligations.ScheduleThroughPermutationUnit := by
  unfold Obligations.ScheduleThroughPermutationUnit
  intro k s hs
  have hpp10 : exec (.pp10 k) s = .next (complete (p10 k) s) := by rw [exec_pp10 hs, zext10_of_width10]
  have hpls (v : Data) : exec (.pls v) s = .next (complete (ls v) s) := by rw [exec_pls hs, zext10_of_width10]
  have hpp8 (v : Data) : exec (.pp8 v) s = .next (complete (0b00#2 ++ p8 v) s) := by
    rw [exec_pp8 hs, zext10_of_width8]
  have hloaded : (complete 0#10 (s.loadPair (keySchedule k).1 (keySchedule k).2)).fault = false := hs
  exact ⟨_, _, _, _, _, _, hpp10, hpls _, hpp8 _, hpls _, hpp8 _, exec_keyld hs k,
    exec_skrd_of_valid (sel := .k1) hloaded rfl, exec_skrd_of_valid (sel := .k2) hloaded rfl⟩

/-! The order of two subkey loads (R156). -/

theorem loadSubkey_k1_then_k2 (s : State) (a b : Subkey) : (s.loadSubkey .k1 a).loadSubkey .k2 b = s.loadPair a b := rfl

theorem loadSubkey_k2_then_k1 (s : State) (a b : Subkey) : (s.loadSubkey .k2 b).loadSubkey .k1 a = s.loadPair a b := rfl

/-- Responding and loading a register do not touch the same fields. -/
theorem loadSubkey_complete (s : State) (d : Data) (sel : SubkeySel) (v : Subkey) :
    (complete d s).loadSubkey sel v = complete d (s.loadSubkey sel v) := by cases sel <;> rfl

/-- Settles O43: in either order the two loads are a load of the pair with two responses, and KEYLD is a load of the
schedule's pair with one. -/
theorem subkeyLoadOrderIrrelevant : Obligations.SubkeyLoadOrderIrrelevant := by
  unfold Obligations.SubkeyLoadOrderIrrelevant
  intro a b s hs
  have hs1 : (complete 0#10 (s.loadSubkey .k1 a)).fault = false := hs
  have ht1 : (complete 0#10 (s.loadSubkey .k2 b)).fault = false := hs
  refine ⟨_, complete 0#10 (complete 0#10 (s.loadPair a b)), _, _, exec_skld hs .k1 a, ?_, exec_skld hs .k2 b, ?_,
    rfl, fun k hk => ?_⟩
  · rw [exec_skld hs1, loadSubkey_complete, loadSubkey_k1_then_k2]
  · rw [exec_skld ht1, loadSubkey_complete, loadSubkey_k2_then_k1]
  · refine ⟨_, exec_keyld hs k, ?_⟩
    rw [← hk]
    exact ⟨rfl, rfl, rfl, rfl, rfl, rfl⟩

/-! Which keys give the same pair (R152 (a)). -/

/-- Two permuted values agree exactly when the source bits do that their tables name for each output bit. -/
theorem permute_eq_permute_iff {n n' m : Nat} {v : BitVec n} {w : BitVec n'} {t : PermTable n m} {u : PermTable n' m} :
    permute v t = permute w u ↔ ∀ i : Fin m, v[t[i]] = w[u[i]] := by
  constructor
  case mp =>
    intro h i
    simpa using congrArg (·[i]) h
  case mpr =>
    intro h
    ext i hi
    simpa using h ⟨i, hi⟩

/-- Permuting by one table gives the same exactly when the source bits that the table names agree. -/
theorem permute_eq_iff {win m : Nat} {v w : BitVec win} {t : PermTable win m} :
    permute v t = permute w t ↔ ∀ j : Fin win, (∃ i : Fin m, t[i] = j) → v[j] = w[j] := by
  rw [permute_eq_permute_iff]
  constructor
  case mp =>
    rintro h _ ⟨i, rfl⟩
    exact h i
  case mpr => exact fun h i => h _ ⟨i, rfl⟩

/-- The schedule uses every bit of the key but bit 8. -/
theorem keySchedule_eq_iff {k k' : MasterKey} :
    keySchedule k = keySchedule k' ↔ ∀ j : Fin 10, j ≠ 8 → k[j] = k'[j] := by
  have hused : ∀ j : Fin 10, j ≠ 8 ↔ (∃ i : Fin 8, subkey1Table[i] = j) ∨ ∃ i : Fin 8, subkey2Table[i] = j := by
    decide
  simp only [Prod.ext_iff, keySchedule_fst, keySchedule_snd, permute_eq_iff, hused, or_imp, forall_and]

/-- Two values agree under a mask exactly when they agree on its bits. -/
theorem and_eq_and_iff {n : Nat} {v w mask : BitVec n} :
    v &&& mask = w &&& mask ↔ ∀ j : Fin n, mask[j] = true → v[j] = w[j] := by
  constructor
  case mp =>
    intro h j hj
    have hbit : (v &&& mask)[j] = (w &&& mask)[j] := congrArg (·[j]) h
    have hj' : mask[j.val] = true := hj
    simpa [hj'] using hbit
  case mpr =>
    intro h
    ext j hj
    cases hmask : mask[j] with
    | true => simpa [hmask] using h ⟨j, hj⟩ hmask
    | false => simp [hmask]

theorem keySchedule_eq_iff_mask (k k' : MasterKey) :
    keySchedule k = keySchedule k' ↔ k &&& 0x2FF#10 = k' &&& 0x2FF#10 := by
  have hmask : ∀ j : Fin 10, (0x2FF#10)[j] = true ↔ j ≠ 8 := by decide
  simp only [keySchedule_eq_iff, and_eq_and_iff, hmask]

/-- Every bit of the master key but bit 8. -/
def usedKeyTable : PermTable 10 9 := #v[0, 1, 2, 3, 4, 5, 6, 7, 9]

/-- The nine bits of the master key that the schedule uses. -/
def usedKeyBits (k : MasterKey) : BitVec 9 := permute k usedKeyTable

/-- A master key with given used bits; its bit 8 repeats bit 0. -/
def keyOfUsedBits (v : BitVec 9) : MasterKey := permute v #v[0, 1, 2, 3, 4, 5, 6, 7, 0, 8]

theorem usedKeyBits_keyOfUsedBits (v : BitVec 9) : usedKeyBits (keyOfUsedBits v) = v :=
  permute_leftInverse (by decide) v

theorem keySchedule_eq_iff_usedKeyBits {k k' : MasterKey} :
    keySchedule k = keySchedule k' ↔ usedKeyBits k = usedKeyBits k' := by
  have hused : ∀ j : Fin 10, j ≠ 8 ↔ ∃ i : Fin 9, usedKeyTable[i] = j := by decide
  simp only [keySchedule_eq_iff, usedKeyBits, permute_eq_iff, hused]

/-- One pair for each value of the nine used bits. -/
theorem ncard_range_keySchedule : (Set.range keySchedule).ncard = 512 := by
  have hinjective : Function.Injective (keySchedule ∘ keyOfUsedBits) := by
    intro v w h
    simpa [usedKeyBits_keyOfUsedBits] using keySchedule_eq_iff_usedKeyBits.mp h
  have hrange : Set.range keySchedule = Set.range (keySchedule ∘ keyOfUsedBits) := by
    refine Set.Subset.antisymm ?_ (Set.range_comp_subset_range _ _)
    rintro _ ⟨k, rfl⟩
    exact ⟨usedKeyBits k, keySchedule_eq_iff_usedKeyBits.mpr (usedKeyBits_keyOfUsedBits _)⟩
  calc (Set.range keySchedule).ncard
      = Nat.card (BitVec 9) := by rw [hrange, Set.ncard_range_of_injective hinjective]
    _ = Nat.card (Fin (2 ^ 9)) := Nat.card_congr BitVec.equivFin.toEquiv
    _ = 512 := Nat.card_fin _

/-! Which subkey a bit of the key reaches (R152 (b)). -/

/-- Flipping source bits changes a permuted value exactly when the table carries one of them to the output. -/
theorem permute_xor_eq_self_iff {win m : Nat} {t : PermTable win m} {v d : BitVec win} :
    permute (v ^^^ d) t = permute v t ↔ permute d t = 0#m := by
  rw [permute_xor]
  exact xor_left_eq_self_iff

/-- Bit 3 reaches only K1, bit 5 only K2, every other used bit both. -/
theorem keySchedule_flip_bit (k : MasterKey) :
    (keySchedule (k ^^^ 0x008#10)).1 ≠ (keySchedule k).1 ∧ (keySchedule (k ^^^ 0x008#10)).2 = (keySchedule k).2 ∧
    (keySchedule (k ^^^ 0x020#10)).1 = (keySchedule k).1 ∧ (keySchedule (k ^^^ 0x020#10)).2 ≠ (keySchedule k).2 ∧
    ∀ j ∈ [0x001#10, 0x002#10, 0x004#10, 0x010#10, 0x040#10, 0x080#10, 0x200#10],
      (keySchedule (k ^^^ j)).1 ≠ (keySchedule k).1 ∧ (keySchedule (k ^^^ j)).2 ≠ (keySchedule k).2 := by
  simp only [keySchedule_fst, keySchedule_snd, ne_eq, permute_xor_eq_self_iff]
  decide

/-! The keys with equal subkeys (R152 (d)). -/

/-- A key whose subkeys are equal: bits 0, 1, 2, 4 and 9 are one bit, bits 3, 5, 6 and 7 another, and bit 8 is free. -/
def equalSubkeysKey (v : BitVec 3) : MasterKey := permute v #v[0, 0, 0, 1, 0, 1, 1, 1, 2, 0]

/-- Bit by bit, the equality of the two subkeys chains the used bits of the key into those two classes. -/
theorem eq_equalSubkeysKey {k : MasterKey} (h : (keySchedule k).1 = (keySchedule k).2) :
    k = equalSubkeysKey (permute k #v[0, 3, 8]) := by
  rw [keySchedule_fst, keySchedule_snd, permute_eq_permute_iff] at h
  have h4 : k[4] = k[0] := h 0
  have h9 : k[9] = k[0] := (h 1).symm
  have h2 : k[2] = k[0] := (h 3).trans h4
  have h1 : k[1] = k[0] := (h 5).trans h2
  have h6 : k[6] = k[3] := (h 6).symm
  have h7 : k[7] = k[3] := (h 4).symm.trans h6
  have h5 : k[5] = k[3] := (h 2).symm.trans h7
  ext i hi
  interval_cases i <;> simp [equalSubkeysKey, *]

/-- The subkeys are equal for exactly eight keys. -/
theorem keySchedule_fst_eq_snd_iff (k : MasterKey) :
    (keySchedule k).1 = (keySchedule k).2 ↔
      k ∈ [0x000#10, 0x0E8#10, 0x100#10, 0x1E8#10, 0x217#10, 0x2FF#10, 0x317#10, 0x3FF#10] := by
  have hkeys : ∀ v : BitVec 3, equalSubkeysKey v ∈
      [0x000#10, 0x0E8#10, 0x100#10, 0x1E8#10, 0x217#10, 0x2FF#10, 0x317#10, 0x3FF#10] := by decide
  constructor
  case mp =>
    intro h
    rw [eq_equalSubkeysKey h]
    exact hkeys _
  case mpr =>
    rw [keySchedule_fst, keySchedule_snd]
    revert k
    simp only [List.forall_mem_cons]
    decide

theorem keySchedule_zero : keySchedule 0x000#10 = (0x00#8, 0x00#8) := by
  rw [keySchedule_eq_permute, permute_zero, permute_zero]

theorem keySchedule_allOnes : keySchedule 0x3FF#10 = (0xFF#8, 0xFF#8) :=
  (keySchedule_eq_permute _).trans (Prod.ext (permute_allOnes subkey1Table) (permute_allOnes subkey2Table))

/-- Settles O41, from the two tables of the bit selection. -/
theorem keyScheduleBitSelection : Obligations.KeyScheduleBitSelection := by
  unfold Obligations.KeyScheduleBitSelection
  exact ⟨keySchedule_eq_permute, keySchedule_eq_iff_mask, ncard_range_keySchedule, keySchedule_flip_bit,
    keySchedule_zero, keySchedule_allOnes, keySchedule_fst_eq_snd_iff⟩

end Sys2Proof.Machine
end

section
/-! PROOF. The block cipher (44_block_cipher.md): encryption with the subkeys exchanged undoes encryption, what follows
from that for the functions and for ENC and DEC, and the sensitivity to the key. -/

namespace Sys2Proof.Machine

/-! The laws of the two functions (R176, R177, R179). -/

/-- IP, the half swap and each Feistel step undo their counterparts from the outside in, because the second run meets
the two subkeys in the opposite order. -/
theorem blockEncryptWith_swapped (c : SBoxConfig) (b : Block) (ka kb : Subkey) :
    blockEncryptWith c (blockEncryptWith c b ka kb) kb ka = b := by
  have hstep (k : Subkey) (v : Block) : feistelWith c (feistelWith c v k) k = v := feistelWith_involutive c k v
  simp only [blockEncryptWith, ip_ipi, hstep, sw_sw, ipi_ip]

/-- Settles O45: encryption with the subkeys exchanged is an inverse on both sides. -/
theorem encryptionIsBijective : Obligations.EncryptionIsBijective := by
  unfold Obligations.EncryptionIsBijective
  intro c ka kb
  refine Function.bijective_iff_has_inverse.mpr ⟨fun b => blockEncryptWith c b kb ka, fun b => ?_, fun b => ?_⟩
  · exact blockEncryptWith_swapped c b ka kb
  · exact blockEncryptWith_swapped c b kb ka

/-! The commands ENC and DEC with both subkeys valid (R173, R175). -/

theorem exec_enc_of_valid {s : State} (hs : s.fault = false) (h1 : s.v1 = true) (h2 : s.v2 = true) (b : Block) :
    exec (.enc b) s = .next (complete (zext10 (blockEncrypt b s.k1 s.k2)) s) := by
  rw [exec_enc hs, withSubkeyPair_of_valid h1 h2]

theorem exec_dec_of_valid {s : State} (hs : s.fault = false) (h1 : s.v1 = true) (h2 : s.v2 = true) (b : Block) :
    exec (.dec b) s = .next (complete (zext10 (blockDecrypt b s.k1 s.k2)) s) := by
  rw [exec_dec hs, withSubkeyPair_of_valid h1 h2]

/-- Settles O28: ENC completes with BlockEncrypt of K1 and K2, which is the computation of R170. -/
theorem encRespondsCiphertext : Obligations.EncRespondsCiphertext := by
  unfold Obligations.EncRespondsCiphertext
  intro b s hs h1 h2
  rw [exec_enc_of_valid hs h1 h2, zext10_of_width8]
  rfl

/-- Settles O29: DEC completes with BlockDecrypt of K1 and K2, which takes K2 first by R171. -/
theorem decRespondsPlaintext : Obligations.DecRespondsPlaintext := by
  unfold Obligations.DecRespondsPlaintext
  intro b s hs h1 h2
  rw [exec_dec_of_valid hs h1 h2, zext10_of_width8]
  rfl

/-- Settles O44: ENC leaves the registers alone, so DEC of its response undoes it with the same two subkeys. -/
theorem encryptDecryptRoundTrip : Obligations.EncryptDecryptRoundTrip := by
  unfold Obligations.EncryptDecryptRoundTrip
  refine ⟨fun c b ka kb => ⟨blockEncryptWith_swapped c b ka kb, blockEncryptWith_swapped c b kb ka⟩,
    fun b s hs h1 h2 => ⟨_, _, exec_enc_of_valid hs h1 h2 b, rfl, ?_⟩⟩
  have hoperand (v : Block) : (zext10 v).extractLsb' 0 8 = v := operand8_zext10 v
  have hback : blockDecrypt (blockEncrypt b s.k1 s.k2) s.k1 s.k2 = b := blockEncryptWith_swapped _ b s.k1 s.k2
  rw [hoperand, exec_dec_of_valid (s := complete _ s) hs h1 h2, complete_k1, complete_k2, hback]
  rfl

/-- SKLD K1 and then SKLD K2 load the pair, with one response each (R155). -/
theorem exec_skld_k1_then_k2 {s : State} (hs : s.fault = false) (a b : Subkey) :
    ∃ s1, exec (.skld .k1 a) s = .next s1 ∧
      exec (.skld .k2 b) s1 = .next (complete 0#10 (complete 0#10 (s.loadPair a b))) := by
  have hs1 : (complete 0#10 (s.loadSubkey .k1 a)).fault = false := hs
  refine ⟨_, exec_skld hs .k1 a, ?_⟩
  rw [exec_skld hs1, loadSubkey_complete, loadSubkey_k1_then_k2]

/-- Settles O47: by R171 DEC over the pair `a`, `b` computes what ENC computes over the pair `b`, `a`. -/
theorem decryptIsSwappedEncrypt : Obligations.DecryptIsSwappedEncrypt := by
  unfold Obligations.DecryptIsSwappedEncrypt
  refine ⟨fun _ _ _ _ => rfl, fun a b v s hs => ?_, fun c v k => ⟨rfl, blockEncryptWith_swapped c v k k⟩⟩
  have hloaded (x y : Subkey) : (complete 0#10 (complete 0#10 (s.loadPair x y))).fault = false := hs
  obtain ⟨s1, hs1, hs2⟩ := exec_skld_k1_then_k2 hs a b
  obtain ⟨t1, ht1, ht2⟩ := exec_skld_k1_then_k2 hs b a
  exact ⟨s1, _, t1, _, _, _, _, hs1, hs2, ht1, ht2, exec_dec_of_valid (hloaded a b) rfl rfl v, rfl,
    exec_enc_of_valid (hloaded b a) rfl rfl v, rfl⟩

/-! The sensitivity to the key (R178). -/

/-- The schedule does not use bit 8 of the master key (R152 (a)). -/
theorem keySchedule_xor_bit8 (k : MasterKey) : keySchedule (k ^^^ 0x100#10) = keySchedule k := by
  rw [keySchedule_eq_permute, keySchedule_eq_permute, Prod.mk.injEq, permute_xor_eq_self_iff, permute_xor_eq_self_iff]
  decide

/-- Settles O46: the two values by evaluation, and the two keys that encrypt alike by their equal schedules. -/
theorem keySensitivity : Obligations.KeySensitivity := by
  unfold Obligations.KeySensitivity
  refine ⟨by decide +kernel, by decide +kernel, fun k b => ?_⟩
  rw [keySchedule_xor_bit8]

end Sys2Proof.Machine
end

section
/-! PROOF. The message procedure (45_message_codec.md): the two message functions as one block function applied to each
character, and the run of the command lists of MSGENC and MSGDEC. -/

namespace Sys2Proof.Machine

/-! The message functions character by character (R185, R186, R189). -/

/-- A block function applied to each character of a message with the subkeys of a key. -/
def mapBlocks (f : Block → Subkey → Subkey → Block) (msg : List Nat) (key : Nat) : List Nat :=
  msg.map fun c => (f (low8 c) (keySchedule (keyBits key)).1 (keySchedule (keyBits key)).2).toNat

theorem msgEncrypt_eq_mapBlocks (msg : List Nat) (key : Nat) : msgEncrypt msg key = mapBlocks blockEncrypt msg key := rfl

theorem msgDecrypt_eq_mapBlocks (msg : List Nat) (key : Nat) : msgDecrypt msg key = mapBlocks blockDecrypt msg key := rfl

@[simp] theorem length_mapBlocks (f : Block → Subkey → Subkey → Block) (msg : List Nat) (key : Nat) :
    (mapBlocks f msg key).length = msg.length := List.length_map _

/-- Every character that a block function gives is a block. -/
theorem le_of_mem_mapBlocks {f : Block → Subkey → Subkey → Block} {msg : List Nat} {key p : Nat}
    (h : p ∈ mapBlocks f msg key) : p ≤ 255 := by
  obtain ⟨c, -, rfl⟩ := List.mem_map.mp h
  exact Nat.le_of_lt_succ (BitVec.isLt _)

/-- The block of a character that is itself a block's value. -/
@[simp] theorem low8_toNat (b : Block) : low8 b.toNat = b := BitVec.ofNat_toNat 8 b |>.trans (BitVec.setWidth_eq b)

/-- The value of a character's block (R189). -/
@[simp] theorem toNat_low8 (c : Nat) : (low8 c).toNat = c % 256 := BitVec.toNat_ofNat c 8

/-- Decryption with the same two subkeys undoes encryption (R176). -/
theorem blockDecrypt_blockEncrypt (b : Block) (ka kb : Subkey) : blockDecrypt (blockEncrypt b ka kb) ka kb = b :=
  blockEncryptWith_swapped sourceSBoxes b ka kb

/-- A block comes back from encryption as it is, so a character comes back as its block. -/
theorem msgDecrypt_msgEncrypt (msg : List Nat) (key : Nat) :
    msgDecrypt (msgEncrypt msg key) key = msg.map (· % 256) := by
  simp [msgEncrypt, msgDecrypt, blockDecrypt_blockEncrypt]

/-- Settles O49: both functions give one character for each character. -/
theorem messageLengthPreserved : Obligations.MessageLengthPreserved := by
  unfold Obligations.MessageLengthPreserved
  intro msg key
  rw [msgEncrypt_eq_mapBlocks, msgDecrypt_eq_mapBlocks]
  exact ⟨length_mapBlocks _ msg key, length_mapBlocks _ msg key, rfl, rfl⟩

/-- Settles O50: each code point comes back modulo 256, which changes none of those at most 255. -/
theorem messageRoundTrip : Obligations.MessageRoundTrip := by
  unfold Obligations.MessageRoundTrip
  refine fun msg key => ⟨fun hmsg => ?_, msgDecrypt_msgEncrypt msg key, fun p hp => le_of_mem_mapBlocks hp⟩
  have hmod : ∀ p ∈ msg, p % 256 = p := fun p hp => Nat.mod_eq_of_lt (Nat.lt_succ_of_le (hmsg p hp))
  calc msgDecrypt (msgEncrypt msg key) key
      = msg.map (· % 256) := msgDecrypt_msgEncrypt msg key
    _ = msg.map id := List.map_congr_left hmod
    _ = msg := List.map_id msg

/-! A run of the engine, one encoded command at a time. -/

theorem coreRun_succ_of_step {M : Host.Core} {s t : M.State} (h : M.step s = .next t) (k : Nat) :
    M.run (k + 1) s = M.run k t := by simp [Host.Core.run, h]

/-- The run of the engine behind the host's interface, with the engine's own types in place of the interface's. -/
def engineRun (k : Nat) (s : State) : Host.Outcome State Fault Refusal := Host.Core.run core k s

/-- A run takes the pending word of a command and goes on from the state the command leaves. -/
theorem engineRun_succ_of_exec {s t : State} {i : Instr} {rest : List HostEvent}
    (hp : s.pending = .command (encode i) :: rest) (h : exec i { s with pending := rest } = .next t) (k : Nat) :
    engineRun (k + 1) s = engineRun k t :=
  coreRun_succ_of_step (M := core) ((step_of_decoded hp (decode_encode i)).trans h) k

theorem engineRun_keyld {s : State} {key : MasterKey} {rest : List HostEvent} (hs : s.fault = false)
    (hp : s.pending = .command (encode (.keyld key)) :: rest) (k : Nat) :
    engineRun (k + 1) s =
      engineRun k
        (complete 0#10 (State.loadPair { s with pending := rest } (keySchedule key).1 (keySchedule key).2)) :=
  engineRun_succ_of_exec hp (exec_keyld (s := { s with pending := rest }) hs key) k

theorem engineRun_last_keyclr {s : State} (hrunning : s.fault = false)
    (hlast : s.pending = [.command (encode .keyclr)]) :
    engineRun 1 s = .next (complete 0#10 (State.clearPair { s with pending := [] })) :=
  engineRun_succ_of_exec hlast (exec_keyclr (s := { s with pending := [] }) hrunning) 0

/-! The command lists of MSGENC and MSGDEC for either block command (R190, R191). -/

/-- The command `mk` responds the value of `f` on its block and the two subkeys, and does nothing else, whenever it may
run (R173, R175). -/
def ComputesBlocks (mk : Block → Instr) (f : Block → Subkey → Subkey → Block) : Prop :=
  ∀ (s : State) (b : Block), s.fault = false → s.v1 = true → s.v2 = true →
    exec (mk b) s = .next (complete (zext10 (f b s.k1 s.k2)) s)

theorem enc_computesBlocks : ComputesBlocks .enc blockEncrypt := fun _ b hs h1 h2 => exec_enc_of_valid hs h1 h2 b

theorem dec_computesBlocks : ComputesBlocks .dec blockDecrypt := fun _ b hs h1 h2 => exec_dec_of_valid hs h1 h2 b

/-- What the host presents for the characters of a message: one block command each. -/
def blockEvents (mk : Block → Instr) (msg : List Nat) : List HostEvent := msg.map fun c => .command (encode (mk (low8 c)))

/-- The responses to those block commands. -/
def blockResponses (f : Block → Subkey → Subkey → Block) (ka kb : Subkey) (msg : List Nat) : List Response :=
  msg.map fun c => ⟨false, zext10 (f (low8 c) ka kb)⟩

/-- What the host presents for a whole message: KEYLD, the block commands, KEYCLR. -/
def messageEvents (mk : Block → Instr) (key : Nat) (msg : List Nat) : List HostEvent :=
  .command (encode (.keyld (keyBits key))) :: (blockEvents mk msg ++ [.command (encode .keyclr)])

theorem map_msgencCommands (key : Nat) (msg : List Nat) :
    (msgencCommands key msg).map .command = messageEvents .enc key msg := by
  simp [msgencCommands, messageEvents, blockEvents]

theorem map_msgdecCommands (key : Nat) (msg : List Nat) :
    (msgdecCommands key msg).map .command = messageEvents .dec key msg := by
  simp [msgdecCommands, messageEvents, blockEvents]

/-- The responses to a whole message: KEYLD and KEYCLR respond 0. -/
def messageResponses (f : Block → Subkey → Subkey → Block) (key : Nat) (msg : List Nat) : List Response :=
  ⟨false, 0#10⟩ :: (blockResponses f (keySchedule (keyBits key)).1 (keySchedule (keyBits key)).2 msg ++ [⟨false, 0#10⟩])

theorem length_messageResponses (f : Block → Subkey → Subkey → Block) (key : Nat) (msg : List Nat) :
    (messageResponses f key msg).length = msg.length + 2 := by simp [messageResponses, blockResponses]

theorem err_of_mem_messageResponses {f : Block → Subkey → Subkey → Block} {key : Nat} {msg : List Nat} {r : Response}
    (h : r ∈ messageResponses f key msg) : r.err = false := by
  simp only [messageResponses, blockResponses, List.mem_cons, List.mem_append, List.mem_map, List.not_mem_nil,
    or_false] at h
  rcases h with rfl | ⟨c, -, rfl⟩ | rfl <;> rfl

/-- Between the first and the last response stand the blocks, each in the low 8 bits of its response. -/
theorem msgOutput_messageResponses (f : Block → Subkey → Subkey → Block) (key : Nat) (msg : List Nat) :
    msgOutput (messageResponses f key msg) = mapBlocks f msg key := by
  simp [msgOutput, messageResponses, blockResponses, mapBlocks, Function.comp_def]

/-- With both subkeys valid the block commands of a message are answered one a step, and nothing else changes; induction
on the message, for whatever the host presents afterwards. -/
theorem engineRun_blockEvents {mk : Block → Instr} {f : Block → Subkey → Subkey → Block} (hmk : ComputesBlocks mk f)
    (rest : List HostEvent) (k : Nat) (msg : List Nat) {s : State} (hs : s.fault = false) (h1 : s.v1 = true)
    (h2 : s.v2 = true) (hp : s.pending = blockEvents mk msg ++ rest) :
    engineRun (msg.length + k) s =
      engineRun k { s with pending := rest, responses := s.responses ++ blockResponses f s.k1 s.k2 msg } := by
  induction msg generalizing s with
  | nil =>
    have hrest : s.pending = rest := hp
    simp [blockResponses, ← hrest]
  | cons c msg ih =>
    have hcons : s.pending = .command (encode (mk (low8 c))) :: (blockEvents mk msg ++ rest) := hp
    rw [List.length_cons, Nat.add_right_comm, engineRun_succ_of_exec hcons (hmk _ (low8 c) hs h1 h2), ih]
    case hp => rfl
    case hs | h1 | h2 => assumption
    simp [complete, respond, blockResponses]

/-- An engine not faulted answers the command list of a message whole and keeps no key: KEYLD makes both subkeys valid,
the block commands leave them alone, and KEYCLR clears them. -/
theorem engineRun_messageEvents {mk : Block → Instr} {f : Block → Subkey → Subkey → Block} (hmk : ComputesBlocks mk f)
    {s : State} {key : Nat} {msg : List Nat} (hs : s.fault = false) (hp : s.pending = messageEvents mk key msg) :
    engineRun (msg.length + 2) s =
      .next { s.clearPair with pending := [], responses := s.responses ++ messageResponses f key msg } := by
  rw [engineRun_keyld hs hp, engineRun_blockEvents hmk [.command (encode .keyclr)] 1, engineRun_last_keyclr]
  case hs | hrunning => exact hs
  case h1 | h2 | hp | hlast => rfl
  simp [messageResponses, complete, respond, State.clearPair, State.loadPair]

/-- What the host reads from the run on a message's command list is the block function of each character. -/
theorem messageEvents_computeMapBlocks {mk : Block → Instr} {f : Block → Subkey → Subkey → Block}
    (hmk : ComputesBlocks mk f) {s : State} {key : Nat} {msg : List Nat} (hs : s.fault = false)
    (hp : s.pending = messageEvents mk key msg) :
    ∃ (t : State) (rs : List Response), Host.Core.run core (msg.length + 2) s = .next t ∧
      t.responses = s.responses ++ rs ∧ rs.length = msg.length + 2 ∧ (∀ r ∈ rs, r.err = false) ∧
      msgOutput rs = mapBlocks f msg key ∧
      t.pending = [] ∧ t.k1 = 0x00#8 ∧ t.k2 = 0x00#8 ∧ t.v1 = false ∧ t.v2 = false ∧ t.fault = false :=
  ⟨_, _, engineRun_messageEvents hmk hs hp, rfl, length_messageResponses f key msg,
    fun _ => err_of_mem_messageResponses, msgOutput_messageResponses f key msg, rfl, rfl, rfl, rfl, rfl, hs⟩

/-- Settles O51: the two command lists differ in the block command only, and the run on either is one lemma. -/
theorem messageExpansionsComputeMessages : Obligations.MessageExpansionsComputeMessages := by
  unfold Obligations.MessageExpansionsComputeMessages
  intro s key msg hs
  rw [map_msgencCommands, map_msgdecCommands, msgEncrypt_eq_mapBlocks, msgDecrypt_eq_mapBlocks]
  exact ⟨messageEvents_computeMapBlocks enc_computesBlocks hs, messageEvents_computeMapBlocks dec_computesBlocks hs⟩

end Sys2Proof.Machine
end

section
/-! PROOF. Exceptions (60_exceptions.md): the faulted state, the commands a missing subkey stops, and which fault the
step of a word raises. -/

namespace Sys2Proof.Machine

/-- Settles O8, by the first arm of the step. -/
theorem idleChangesNothing : Obligations.IdleChangesNothing := by
  unfold Obligations.IdleChangesNothing
  intro s hp
  rw [step, takeEvent_nil hp, idle]

/-! The faulted state (R206). -/

/-- Whatever the word, with FAULT = 1 its step takes it and refuses it. -/
theorem step_of_faulted {s : State} {w : CmdWord} {rest : List HostEvent} (hf : s.fault = true)
    (hp : s.pending = .command w :: rest) : step s = .next (refuseFaulted { s with pending := rest }) := by
  obtain ⟨body, -, hstep⟩ := step_body_readsOnlyRegisters w
  exact (hstep s rest hp).trans (acceptCommand_of_faulted hf)

/-- With FAULT = 1 and no valid subkey SR shows the cause and nothing else (R27). -/
theorem sr_of_faulted {s : State} (hf : s.fault = true) (h1 : s.v1 = false) (h2 : s.v2 = false) :
    s.sr = 0b1#1 ++ s.cause ++ 0b0000#4 := by
  rw [State.sr, hf, h1, h2]
  generalize s.cause = c
  decide +revert

/-- Settles O21: every word is refused, and the invariants leave a faulted engine no valid subkey. -/
theorem faultedStateRefusesEveryCommand : Obligations.FaultedStateRefusesEveryCommand := by
  unfold Obligations.FaultedStateRefusesEveryCommand
  refine ⟨fun s w rest hf hp => step_of_faulted hf hp, fun s hinv hf => ?_⟩
  obtain ⟨-, -, -, hcleared, -⟩ := hinv
  obtain ⟨h1, h2, -, -⟩ := hcleared hf
  exact sr_of_faulted hf h1 h2

/-! The commands that need a subkey (R201). -/

/-- The instruction would use a subkey register whose valid bit is 0: ENC and DEC use both, SKRD, FRND and FSTEP the
selected one, the others none. -/
def LacksSubkey (s : State) : Instr → Prop
  | .enc _ | .dec _ => s.v1 = false ∨ s.v2 = false
  | .skrd sel | .frnd sel _ | .fstep sel _ => s.valid sel = false
  | _ => False

theorem withSubkey_of_invalid {sel : SubkeySel} {f : Subkey → Data} {s : State} (h : s.valid sel = false) :
    withSubkey sel f s = raiseFault .subkeyInvalid s := by simp [withSubkey, h]

theorem withSubkeyPair_of_invalid {f : Subkey → Subkey → Data} {s : State} (h : s.v1 = false ∨ s.v2 = false) :
    withSubkeyPair f s = raiseFault .subkeyInvalid s := by
  rcases h with h | h <;> simp [withSubkeyPair, State.pairValid, h]

/-- A command that lacks its subkey takes the SUBKEY_INVALID fault, whatever its operand. -/
theorem exec_of_lacksSubkey {s : State} {i : Instr} (hf : s.fault = false) (h : LacksSubkey s i) :
    exec i s = .next (raiseFault .subkeyInvalid s) := by
  cases i
  case enc b => rw [exec_enc hf, withSubkeyPair_of_invalid h]
  case dec b => rw [exec_dec hf, withSubkeyPair_of_invalid h]
  case skrd sel => rw [exec_skrd hf, withSubkey_of_invalid h]
  case frnd sel r => rw [exec_frnd hf, withSubkey_of_invalid h]
  case fstep sel b => rw [exec_fstep hf, withSubkey_of_invalid h]
  all_goals exact h.elim

theorem both_valid_of_not_lacking {s : State} (h : ¬ (s.v1 = false ∨ s.v2 = false)) : s.v1 = true ∧ s.v2 = true := by
  simpa using h

/-- Any other command completes, and completing writes neither FAULT nor CAUSE (R25). -/
theorem exec_of_not_lacksSubkey {s : State} {i : Instr} (hf : s.fault = false) (h : ¬ LacksSubkey s i) :
    ∃ t, exec i s = .next t ∧ t.fault = false ∧ t.cause = s.cause := by
  cases i
  case enc b =>
    obtain ⟨h1, h2⟩ := both_valid_of_not_lacking h
    exact ⟨_, exec_enc_of_valid hf h1 h2 b, hf, rfl⟩
  case dec b =>
    obtain ⟨h1, h2⟩ := both_valid_of_not_lacking h
    exact ⟨_, exec_dec_of_valid hf h1 h2 b, hf, rfl⟩
  case skrd sel => exact ⟨_, exec_skrd_of_valid hf (Bool.eq_true_of_not_eq_false h), hf, rfl⟩
  case frnd sel r => exact ⟨_, exec_frnd_of_valid hf (Bool.eq_true_of_not_eq_false h) r, hf, rfl⟩
  case fstep sel b => exact ⟨_, exec_fstep_of_valid hf (Bool.eq_true_of_not_eq_false h) b, hf, rfl⟩
  case skld sel v => exact ⟨_, exec_skld hf sel v, by cases sel <;> exact hf, by cases sel <;> rfl⟩
  case keyld k => exact ⟨_, exec_keyld hf k, hf, rfl⟩
  case keyclr => exact ⟨_, exec_keyclr hf, hf, rfl⟩
  all_goals exact ⟨_, acceptCommand_of_running hf, hf, rfl⟩

/-- Settles O18: the listed commands and valid bits are those that lack a subkey. -/
theorem invalidSubkeyFaults : Obligations.InvalidSubkeyFaults := by
  unfold Obligations.InvalidSubkeyFaults
  intro s hf i h
  have hlacks : LacksSubkey s i := by
    rcases h with ⟨⟨b, rfl | rfl⟩, hv⟩ | ⟨rfl | ⟨r, rfl⟩ | ⟨b, rfl⟩, hv⟩ | ⟨rfl | ⟨r, rfl⟩ | ⟨b, rfl⟩, hv⟩ <;> exact hv
  exact exec_of_lacksSubkey hf hlacks

/-! The fault of a word (R70, R204, R205). -/

/-- With FAULT = 0 the step of a word raises the fault of a word that is no command, else SUBKEY_INVALID for a command
that lacks a subkey, else none. -/
theorem step_running_cases {s : State} {w : CmdWord} {rest : List HostEvent} (hf : s.fault = false)
    (hp : s.pending = .command w :: rest) :
    (∃ e, decode w = .error e ∧ step s = .next (raiseFault (causeOfDecodeError e) { s with pending := rest })) ∨
      (∃ i, decode w = .ok i ∧ LacksSubkey s i ∧
        step s = .next (raiseFault .subkeyInvalid { s with pending := rest })) ∨
      (∃ i t, decode w = .ok i ∧ ¬ LacksSubkey s i ∧ step s = .next t ∧ t.fault = false ∧ t.cause = s.cause) := by
  cases hd : decode w with
  | error e => exact .inl ⟨e, rfl, step_of_rejected_running hf hp hd⟩
  | ok i =>
    by_cases hl : LacksSubkey s i
    · exact .inr (.inl ⟨i, rfl, hl, (step_of_decoded hp hd).trans (exec_of_lacksSubkey hf hl)⟩)
    · obtain ⟨t, ht, hfault, hcause⟩ := exec_of_not_lacksSubkey (s := { s with pending := rest }) hf hl
      exact .inr (.inr ⟨i, t, rfl, hl, (step_of_decoded hp hd).trans ht, hfault, hcause⟩)

theorem code_mem (c : FaultCause) : c.code ∈ [1#3, 2#3, 3#3] := by cases c <;> decide

/-- Settles O20: a step that raises a fault is a fault entry, and every other step leaves FAULT at 0. -/
theorem faultEntryIsWholeEffect : Obligations.FaultEntryIsWholeEffect := by
  unfold Obligations.FaultEntryIsWholeEffect
  intro s t w rest hf hp hstep hfault
  obtain ⟨c, hc⟩ : ∃ c, step s = .next (raiseFault c { s with pending := rest }) := by
    rcases step_running_cases hf hp with ⟨e, -, h⟩ | ⟨i, -, -, h⟩ | ⟨i, u, -, -, h, hu, -⟩
    · exact ⟨_, h⟩
    · exact ⟨_, h⟩
    · obtain rfl := Host.Outcome.next.inj (hstep.symm.trans h)
      simp [hu] at hfault
  obtain rfl := Host.Outcome.next.inj (hstep.symm.trans hc)
  exact ⟨c.code, code_mem c, rfl⟩

theorem valid_selOfKs (s : State) (ks : Bool) : s.valid (selOfKs ks) = if ks then s.v2 else s.v1 := by cases ks <;> rfl

/-- The opcodes assigned with an S format are 0x02, 0x04, 0x19 and 0x1A (R64, R65). -/
theorem opcode_mem_sFormat_iff (m : Mnemonic) :
    m.opcode ∈ [0x02#5, 0x04#5, 0x19#5, 0x1A#5] ↔ usesKs (formatOf m) = true := by cases m <;> decide

/-- Which commands lack a subkey, read off OP and KS: ENC and DEC either, SKRD, FRND and FSTEP the one KS selects. -/
theorem lacksSubkey_build_iff (s : State) (m : Mnemonic) (ks : Bool) (d : Data) :
    LacksSubkey s (m.build (selOfKs ks) d) ↔
      (m.opcode ∈ [0x08#5, 0x09#5] ∧ (s.v1 = false ∨ s.v2 = false)) ∨
        (m.opcode ∈ [0x04#5, 0x19#5, 0x1A#5] ∧ (if ks then s.v2 else s.v1) = false) := by
  rw [← valid_selOfKs]
  cases m <;> simp [Mnemonic.build, Mnemonic.opcode, LacksSubkey]

/-- A word that decodes has an assigned opcode, and KS = 0 where its format reserves it (R66, R67). -/
theorem fields_of_decoded {w : CmdWord} {i : Instr} (hd : decode w = .ok i) :
    ∃ m : Mnemonic, opField w = m.opcode ∧ ¬ (m.opcode ∉ [0x02#5, 0x04#5, 0x19#5, 0x1A#5] ∧ ksField w = true) ∧
      i = m.build (selOfKs (ksField w)) (dataField w) := by
  obtain ⟨m, hop, hks, rfl⟩ := decode_eq_ok.mp hd
  refine ⟨m, ofOpcode_eq_some_iff.mp hop, ?_, rfl⟩
  rintro ⟨hD, hks1⟩
  rw [opcode_mem_sFormat_iff] at hD
  simp [hD, hks1] at hks

/-- The opcodes of the commands are not among the reserved ones (R66). -/
theorem opcode_not_reserved (m : Mnemonic) :
    m.opcode ∉ [0x00#5, 0x05#5, 0x06#5, 0x07#5, 0x0A#5, 0x0B#5, 0x0C#5, 0x0D#5, 0x0E#5, 0x0F#5, 0x1B#5, 0x1C#5, 0x1D#5,
      0x1E#5, 0x1F#5] := by
  rw [← ofOpcode_eq_none_iff, ofOpcode_opcode]
  exact nofun

/-- Settles O19: the decoder rejects the reserved opcodes first, then KS = 1 outside the S formats, and what it accepts
faults exactly when it lacks a subkey. -/
theorem firstApplicableFaultIsRaised : Obligations.FirstApplicableFaultIsRaised := by
  unfold Obligations.FirstApplicableFaultIsRaised
  intro s w rest hf hp
  rw [← opField, ← ksField]
  rcases step_running_cases hf hp with ⟨e, hd, h⟩ | ⟨i, hd, hl, h⟩ | ⟨i, t, hd, hl, h, hfault⟩
  case inl =>
    refine ⟨_, h, ?_⟩
    cases e
    case illegalOpcode =>
      rw [if_pos ((ofOpcode_eq_none_iff _).mp (decode_eq_illegalOpcode.mp hd))]
      exact ⟨rfl, rfl⟩
    case reservedField =>
      obtain ⟨⟨m, hop, hu⟩, hks⟩ := decode_eq_reservedField.mp hd
      have hD : m.opcode ∉ [0x02#5, 0x04#5, 0x19#5, 0x1A#5] := by rw [opcode_mem_sFormat_iff, hu]; exact nofun
      rw [ofOpcode_eq_some_iff.mp hop, if_neg (opcode_not_reserved m), if_pos ⟨hD, hks⟩]
      exact ⟨rfl, rfl⟩
  case inr.inl =>
    obtain ⟨m, hop, hks, rfl⟩ := fields_of_decoded hd
    rw [lacksSubkey_build_iff] at hl
    refine ⟨_, h, ?_⟩
    rw [hop, if_neg (opcode_not_reserved m), if_neg hks, if_pos hl]
    exact ⟨rfl, rfl⟩
  case inr.inr =>
    obtain ⟨m, hop, hks, rfl⟩ := fields_of_decoded hd
    rw [lacksSubkey_build_iff] at hl
    refine ⟨t, h, ?_⟩
    rw [hop, if_neg (opcode_not_reserved m), if_neg hks, if_neg hl]
    exact hfault

end Sys2Proof.Machine
end

section
/-! PROOF. Reset and hazards (70_reset_and_hazards.md): the block commands depend on their own operand and the subkey
registers only (R241, R192). -/

namespace Sys2Proof.Machine

/-- The instruction responds the value of `g` on the two subkeys, and does nothing else, whenever it may run (R173,
R175). -/
def RespondsFromSubkeys (i : Instr) (g : Subkey → Subkey → Data) : Prop :=
  ∀ s : State, s.fault = false → s.v1 = true → s.v2 = true → exec i s = .next (complete (g s.k1 s.k2) s)

theorem respondsFromSubkeys_of_blockCommand {i : Instr} (hi : i.mnemonic ∈ [.enc, .dec]) :
    ∃ g, RespondsFromSubkeys i g := by
  cases i
  case enc b => exact ⟨fun k1 k2 => zext10 (blockEncrypt b k1 k2), fun s => enc_computesBlocks s b⟩
  case dec b => exact ⟨fun k1 k2 => zext10 (blockDecrypt b k1 k2), fun s => dec_computesBlocks s b⟩
  all_goals simp [Instr.mnemonic] at hi

/-- The first of two such commands leaves the registers alone, so the second responds as it would alone. -/
theorem RespondsFromSubkeys.exec_after_complete {i : Instr} {g : Subkey → Subkey → Data}
    (h : RespondsFromSubkeys i g) {s : State} (hs : s.fault = false) (h1 : s.v1 = true) (h2 : s.v2 = true) (d : Data) :
    exec i (complete d s) = .next (complete (g s.k1 s.k2) (complete d s)) := h (complete d s) hs h1 h2

theorem complete_complete_responses (d d' : Data) (s : State) :
    (complete d' (complete d s)).responses = s.responses ++ [⟨false, d⟩, ⟨false, d'⟩] := by simp

theorem complete_complete_sameRegisters (d d' : Data) (s : State) :
    (complete d' (complete d s)).SameRegisters (complete d (complete d' s)) := ⟨rfl, rfl, rfl, rfl, rfl, rfl⟩

/-- Settles O48: in either order each command completes with its own function of the subkeys, which neither changes. -/
theorem blockCommandsIndependent : Obligations.BlockCommandsIndependent := by
  unfold Obligations.BlockCommandsIndependent
  intro i j s hs h1 h2 hi hj
  obtain ⟨gi, hgi⟩ := respondsFromSubkeys_of_blockCommand hi
  obtain ⟨gj, hgj⟩ := respondsFromSubkeys_of_blockCommand hj
  exact ⟨⟨false, gi s.k1 s.k2⟩, ⟨false, gj s.k1 s.k2⟩, _, _, _, _,
    hgi s hs h1 h2, hgj.exec_after_complete hs h1 h2 _, complete_complete_responses _ _ s,
    hgj s hs h1 h2, hgi.exec_after_complete hs h1 h2 _, complete_complete_responses _ _ s,
    complete_complete_sameRegisters _ _ s⟩

end Sys2Proof.Machine
end
